-- ==== Sys2Proof/Word.lean ====
section
/-! DEFINITION. The word types of the frame codec: a wire byte, the 56-bit command word and the 72-bit result word
(spec 00_scope.md R9, R10). -/

namespace Sys2Proof

/-- Every wire field is an unsigned byte (R9). -/
abbrev Byte := BitVec 8

/-- The command word `CMD` (R9, R44). -/
abbrev CmdWord := BitVec 56

/-- The result word `RES` as the host reads it (R9, R48). -/
abbrev ResWord := BitVec 72

end Sys2Proof
end

