-- ==== Sys2Proof/Syntax.lean ====
section
/-! DEFINITION. The instructions of the codec (one constructor per row of the opcode table), what the host presents,
the turns the agents of R5 take, and the events of R6. -/

namespace Sys2Proof

/-- The operands every ENCODE command word carries beside its instruction byte: the fields `NPARAM`, `ADDR`,
`P0` .. `P3` of R44, as the word has them (which of `P0` .. `P3` count is `NPARAM`'s business, R46). -/
structure EncOperands where
  nparam : BitVec 3
  addr   : Byte
  p0     : Byte
  p1     : Byte
  p2     : Byte
  p3     : Byte
deriving DecidableEq, Repr, Inhabited

/-- The operations the host can start (R50). `encode` is the generic ENCODE row, whose words carry an instruction byte
of no other row; the 28 rows of 42_opcode_values.md are ENCODE with their own instruction byte (log entry 5). -/
inductive Instr where
  /-- `ENCODE` with the instruction byte `instr` (R57). -/
  | encode (o : EncOperands) (instr : Byte)
  /-- `DECODE` (R64): it has no operands. -/
  | decode
  /-- `MOVE`: ENCODE with INSTR = 1 (R82). -/
  | move (o : EncOperands)
  /-- `MOVE_READ`: ENCODE with INSTR = 2 (R83). -/
  | moveRead (o : EncOperands)
  /-- `MOVE_WAIT_WRITE`: ENCODE with INSTR = 7 (R84). -/
  | moveWaitWrite (o : EncOperands)
  /-- `MOVE_WAIT_READ`: ENCODE with INSTR = 8 (R85). -/
  | moveWaitRead (o : EncOperands)
  /-- `MOVE_START`: ENCODE with INSTR = 11 (R86). -/
  | moveStart (o : EncOperands)
  /-- `MOVE_STOP`: ENCODE with INSTR = 12 (R87). -/
  | moveStop (o : EncOperands)
  /-- `ID_WRITE`: ENCODE with INSTR = 13 (R88). -/
  | idWrite (o : EncOperands)
  /-- `ID_READ`: ENCODE with INSTR = 14 (R89). -/
  | idRead (o : EncOperands)
  /-- `ANGLE_OFFSET_ADJUST`: ENCODE with INSTR = 17 (R90). -/
  | angleOffsetAdjust (o : EncOperands)
  /-- `ANGLE_OFFSET_WRITE`: ENCODE with INSTR = 18 (R91). -/
  | angleOffsetWrite (o : EncOperands)
  /-- `ANGLE_OFFSET_READ`: ENCODE with INSTR = 19 (R92). -/
  | angleOffsetRead (o : EncOperands)
  /-- `ANGLE_LIMIT_WRITE`: ENCODE with INSTR = 20 (R93). -/
  | angleLimitWrite (o : EncOperands)
  /-- `ANGLE_LIMIT_READ`: ENCODE with INSTR = 21 (R94). -/
  | angleLimitRead (o : EncOperands)
  /-- `VOLTAGE_LIMIT_WRITE`: ENCODE with INSTR = 22 (R95). -/
  | voltageLimitWrite (o : EncOperands)
  /-- `VOLTAGE_LIMIT_READ`: ENCODE with INSTR = 23 (R96). -/
  | voltageLimitRead (o : EncOperands)
  /-- `TEMPERATURE_LIMIT_WRITE`: ENCODE with INSTR = 24 (R97). -/
  | temperatureLimitWrite (o : EncOperands)
  /-- `TEMPERATURE_LIMIT_READ`: ENCODE with INSTR = 25 (R98). -/
  | temperatureLimitRead (o : EncOperands)
  /-- `TEMPERATURE_READ`: ENCODE with INSTR = 26 (R99). -/
  | temperatureRead (o : EncOperands)
  /-- `VOLTAGE_READ`: ENCODE with INSTR = 27 (R100). -/
  | voltageRead (o : EncOperands)
  /-- `POSITION_READ`: ENCODE with INSTR = 28 (R101). -/
  | positionRead (o : EncOperands)
  /-- `MODE_WRITE`: ENCODE with INSTR = 29 (R102). -/
  | modeWrite (o : EncOperands)
  /-- `MODE_READ`: ENCODE with INSTR = 30 (R103). -/
  | modeRead (o : EncOperands)
  /-- `LOAD_WRITE`: ENCODE with INSTR = 31 (R104). -/
  | loadWrite (o : EncOperands)
  /-- `LOAD_READ`: ENCODE with INSTR = 32 (R105). -/
  | loadRead (o : EncOperands)
  /-- `LED_WRITE`: ENCODE with INSTR = 33 (R106). -/
  | ledWrite (o : EncOperands)
  /-- `LED_READ`: ENCODE with INSTR = 34 (R107). -/
  | ledRead (o : EncOperands)
  /-- `LED_ERROR_WRITE`: ENCODE with INSTR = 35 (R108). -/
  | ledErrorWrite (o : EncOperands)
  /-- `LED_ERROR_READ`: ENCODE with INSTR = 36 (R109). -/
  | ledErrorRead (o : EncOperands)
deriving DecidableEq, Repr, Inhabited

/-- One entry of what the host will present on the command port, in order (R52). -/
inductive HostItem where
  /-- Present this word as soon as the word before it has been accepted. -/
  | word (w : CmdWord)
  /-- Present this word only after the operation before it has completed with TX_DONE, and skip it after any other
  result: the DECODE of the pseudo-instruction `QUERY` (R53). -/
  | afterTxDone (w : CmdWord)
deriving DecidableEq, Repr, Inhabited

/-- Which agent moves, and how (R5). The first five can be an event of R6; the last three are moves of the environment
that change nothing in the block. -/
inductive Turn where
  /-- The command port is looked at: a presented word is accepted if the engine is idle (R45). -/
  | host
  /-- The TX sink accepts the byte on offer, if there is one (R59). -/
  | txAccept
  /-- The RX source delivers its oldest byte, if the engine awaits one (R30, R31). -/
  | rxDeliver
  /-- The timeout source fires, if a DECODE is in progress (R77). -/
  | timeout
  /-- Reset (R127). -/
  | reset
  /-- The host puts one more item at the end of what it will present. -/
  | present (i : HostItem)
  /-- A byte reaches the RX source from the bus and waits there (R31). -/
  | arrive (b : Byte)
  /-- Nobody moves: a sink that has not accepted yet, a silent bus, an idle host (R63, R78, R126). -/
  | wait
deriving DecidableEq, Repr, Inhabited

/-- The events of R6: one step of the block is exactly one of these. -/
inductive Event where
  | accept (w : CmdWord)
  | txAccept
  | rxByte (b : Byte)
  | timeout
  | reset
deriving DecidableEq, Repr, Inhabited

end Sys2Proof
end

