-- ==== Sys2Proof/Config.lean ====
section
/-! DEFINITION. The fixed constants of R7, the one open parameter of R8, and the model's one free value: the turns of the
environment (R5, R6). -/

namespace Sys2Proof.Config

/-- `MARKER`: the byte that stands twice at the start of every frame (R7). -/
def marker : Byte := 0x55

/-- `MAX_PARAMS`: the largest number of parameter bytes in a frame (R7). -/
def maxParams : Nat := 4

/-- `MAX_RX_LEN`: the largest length byte the decoder accepts (R7). -/
def maxRxLen : Nat := 7

/-- `LEN_BIAS`: length = 3 + number of parameters (R7). -/
def lenBias : Nat := 3

/-- `BROADCAST`: the address of all servos (R7, R38). -/
def broadcast : Byte := 254

/-- `MAX_ADDR`: the largest address the encoder accepts (R7). -/
def maxAddr : Nat := 254

/-- `VALID_OPCODES`: the 28 legal instruction bytes, 1, 2, 7, 8, 11 to 14 and 17 to 36 (R7, R51). -/
def validOpcodes : List Byte :=
  [1, 2, 7, 8, 11, 12, 13, 14] ++ [17, 18, 19, 20, 21, 22, 23, 24, 25] ++
    [26, 27, 28, 29, 30, 31, 32, 33, 34, 35, 36]

/-- `READ_TIMEOUT`, left OPEN by R8: the time a read call may take. No rule of the model uses it (log entry 10). -/
opaque readTimeout : Nat

/-- FREE VALUE (log entry 1): the turn the agents take when the schedule in the state names none. Nothing constrains it,
so that a claim about such a step holds for every choice the environment can make (R5, R77, R78). -/
opaque freeTurn : Nat → Turn

end Sys2Proof.Config
end

