-- ==== Sys2Proof/WellFormed.lean ====
section
/-! DEFINITION. Which terms of `Instr` stand for a command word: the generic ENCODE stands only for words whose
instruction byte has no row of its own (R50, R51; log entry 5). -/

namespace Sys2Proof

/-- Is `v` one of the 28 legal instruction bytes (R51)? -/
def isValidOpcode (v : Byte) : Bool := Config.validOpcodes.contains v

/-- Well-formedness of an instruction. Every field of the operands is legal in a command word: an address 255, a count
above 4 and nonzero unused parameter bytes are words the block accepts (R46, R47). -/
def Instr.wf : Instr → Bool
  | .encode _ v => !isValidOpcode v
  | .decode => true
  | .move _ => true
  | .moveRead _ => true
  | .moveWaitWrite _ => true
  | .moveWaitRead _ => true
  | .moveStart _ => true
  | .moveStop _ => true
  | .idWrite _ => true
  | .idRead _ => true
  | .angleOffsetAdjust _ => true
  | .angleOffsetWrite _ => true
  | .angleOffsetRead _ => true
  | .angleLimitWrite _ => true
  | .angleLimitRead _ => true
  | .voltageLimitWrite _ => true
  | .voltageLimitRead _ => true
  | .temperatureLimitWrite _ => true
  | .temperatureLimitRead _ => true
  | .temperatureRead _ => true
  | .voltageRead _ => true
  | .positionRead _ => true
  | .modeWrite _ => true
  | .modeRead _ => true
  | .loadWrite _ => true
  | .loadRead _ => true
  | .ledWrite _ => true
  | .ledRead _ => true
  | .ledErrorWrite _ => true
  | .ledErrorRead _ => true

end Sys2Proof
end

