-- ==== Sys2Proof/Decode.lean ====
section
/-! DEFINITION. The decoder of the command word (R44, R46, R50), total on every word; on a list of bytes it rejects, by
name, only a list too short to hold a word. After it the encoder, written from the same table. -/

namespace Sys2Proof

/-- The `w`-bit word with the field `v` at bit `lo` and 0 elsewhere. -/
def place {n : Nat} (w : Nat) (v : BitVec n) (lo : Nat) : BitVec w := v.setWidth w <<< lo

/-! ### The fields of a command word (R44) -/

/-- `OP = CMD[0]`. -/
def cmdOp (w : CmdWord) : BitVec 1 := w.extractLsb' 0 1
/-- `NPARAM = CMD[3:1]`. -/
def cmdNParam (w : CmdWord) : BitVec 3 := w.extractLsb' 1 3
/-- `ADDR = CMD[15:8]`. -/
def cmdAddr (w : CmdWord) : Byte := w.extractLsb' 8 8
/-- `INSTR = CMD[23:16]`. -/
def cmdInstr (w : CmdWord) : Byte := w.extractLsb' 16 8
/-- `P0 = CMD[31:24]`. -/
def cmdP0 (w : CmdWord) : Byte := w.extractLsb' 24 8
/-- `P1 = CMD[39:32]`. -/
def cmdP1 (w : CmdWord) : Byte := w.extractLsb' 32 8
/-- `P2 = CMD[47:40]`. -/
def cmdP2 (w : CmdWord) : Byte := w.extractLsb' 40 8
/-- `P3 = CMD[55:48]`. -/
def cmdP3 (w : CmdWord) : Byte := w.extractLsb' 48 8

/-- The operands of an ENCODE word; `CMD[7:4]` is ignored (R46). -/
def cmdOperands (w : CmdWord) : EncOperands :=
  { nparam := cmdNParam w, addr := cmdAddr w, p0 := cmdP0 w, p1 := cmdP1 w, p2 := cmdP2 w, p3 := cmdP3 w }

/-- The ENCODE row that the instruction byte `v` selects (42_opcode_values.md R82 to R110). -/
def encodeRow (v : Byte) (o : EncOperands) : Instr :=
  match v.toNat with
  | 1 => .move o
  | 2 => .moveRead o
  | 7 => .moveWaitWrite o
  | 8 => .moveWaitRead o
  | 11 => .moveStart o
  | 12 => .moveStop o
  | 13 => .idWrite o
  | 14 => .idRead o
  | 17 => .angleOffsetAdjust o
  | 18 => .angleOffsetWrite o
  | 19 => .angleOffsetRead o
  | 20 => .angleLimitWrite o
  | 21 => .angleLimitRead o
  | 22 => .voltageLimitWrite o
  | 23 => .voltageLimitRead o
  | 24 => .temperatureLimitWrite o
  | 25 => .temperatureLimitRead o
  | 26 => .temperatureRead o
  | 27 => .voltageRead o
  | 28 => .positionRead o
  | 29 => .modeWrite o
  | 30 => .modeRead o
  | 31 => .loadWrite o
  | 32 => .loadRead o
  | 33 => .ledWrite o
  | 34 => .ledRead o
  | 35 => .ledErrorWrite o
  | 36 => .ledErrorRead o
  | _ => .encode o v

/-- The instruction a command word stands for (R50): `CMD[0]` selects the operation. -/
def decodeWord (w : CmdWord) : Instr :=
  if cmdOp w = 1 then .decode else encodeRow (cmdInstr w) (cmdOperands w)

/-! ### Words as bytes: byte `k` is `word[8k+7:8k]` (R10) -/

/-- The word whose bytes 0 to 6 are the arguments. -/
def wordOfBytes (b0 b1 b2 b3 b4 b5 b6 : Byte) : CmdWord :=
  place 56 b0 0 ||| place 56 b1 8 ||| place 56 b2 16 ||| place 56 b3 24 ||| place 56 b4 32 ||| place 56 b5 40 |||
    place 56 b6 48

/-- The bytes of a word, byte 0 first. -/
def bytesOfWord (w : CmdWord) : List Byte :=
  [w.extractLsb' 0 8, cmdAddr w, cmdInstr w, cmdP0 w, cmdP1 w, cmdP2 w, cmdP3 w]

/-- Why a list of bytes holds no command word. -/
inductive DecodeError where
  /-- Fewer than the seven bytes of a command word (R44). -/
  | shortWord
deriving DecidableEq, Repr

/-- Read one command word from the front of a list of bytes and decode it. No command word is refused (R47). -/
def decode : List Byte → Except DecodeError (Instr × List Byte)
  | b0 :: b1 :: b2 :: b3 :: b4 :: b5 :: b6 :: rest => .ok (decodeWord (wordOfBytes b0 b1 b2 b3 b4 b5 b6), rest)
  | _ => .error .shortWord

/-- The instruction the decoder reads from the command word whose bits are `w` (bits above `nbits` zero), numbered as
the opcode table numbers them. -/
def decodeTableWord (nbits w : Nat) : Option Instr :=
  match decode (bytesOfWord (BitVec.ofNat 56 (w % 2 ^ nbits))) with
  | .ok (i, _) => some i
  | .error _ => none

/-! ### The encoder -/

/-- The ENCODE word with instruction byte `v` and operands `o`; `OP` and the ignored bits are 0 (R44, R46). -/
def packEncode (v : Byte) (o : EncOperands) : CmdWord :=
  place 56 o.nparam 1 ||| place 56 o.addr 8 ||| place 56 v 16 ||| place 56 o.p0 24 ||| place 56 o.p1 32 |||
    place 56 o.p2 40 ||| place 56 o.p3 48

/-- The command word of an instruction (R44, R50, R52). -/
def encode : Instr → CmdWord
  | .encode o v => packEncode v o
  | .decode => 1
  | .move o => packEncode 1 o
  | .moveRead o => packEncode 2 o
  | .moveWaitWrite o => packEncode 7 o
  | .moveWaitRead o => packEncode 8 o
  | .moveStart o => packEncode 11 o
  | .moveStop o => packEncode 12 o
  | .idWrite o => packEncode 13 o
  | .idRead o => packEncode 14 o
  | .angleOffsetAdjust o => packEncode 17 o
  | .angleOffsetWrite o => packEncode 18 o
  | .angleOffsetRead o => packEncode 19 o
  | .angleLimitWrite o => packEncode 20 o
  | .angleLimitRead o => packEncode 21 o
  | .voltageLimitWrite o => packEncode 22 o
  | .voltageLimitRead o => packEncode 23 o
  | .temperatureLimitWrite o => packEncode 24 o
  | .temperatureLimitRead o => packEncode 25 o
  | .temperatureRead o => packEncode 26 o
  | .voltageRead o => packEncode 27 o
  | .positionRead o => packEncode 28 o
  | .modeWrite o => packEncode 29 o
  | .modeRead o => packEncode 30 o
  | .loadWrite o => packEncode 31 o
  | .loadRead o => packEncode 32 o
  | .ledWrite o => packEncode 33 o
  | .ledRead o => packEncode 34 o
  | .ledErrorWrite o => packEncode 35 o
  | .ledErrorRead o => packEncode 36 o

end Sys2Proof
end

