-- ==== Sys2Proof/Machine/State.lean ====
section
/-! DEFINITION. The state of the codec (10_state.md R15 to R21), the environment's data that the step reads (R5), the
faults and refusals, and the state after reset (R15, R127). -/

namespace Sys2Proof.Machine

/-- `ENG`, 2 bits (R15, R16). `reserved` is the value 3, which no rule writes. -/
inductive Eng where
  | idle
  | encode
  | decode
  | reserved
deriving DecidableEq, Repr, Inhabited

/-- `DSTATE`, 3 bits (R15, R17). The last three are the values 5, 6 and 7, which no rule writes. -/
inductive DState where
  | seekMarker1
  | seekMarker2
  | readHeader
  | readParams
  | readChecksum
  | reserved5
  | reserved6
  | reserved7
deriving DecidableEq, Repr, Inhabited

/-- `KIND`, 2 bits (R48): the outcome an operation ended with. -/
inductive Kind where
  | txDone
  | frame
  | timeout
  | encodingError
deriving DecidableEq, Repr, Inhabited

/-- The fields of the result register `RES` (R20, R48). -/
structure Result where
  kind   : Kind
  reason : BitVec 3
  rnp    : BitVec 3
  addr   : Byte
  len    : Byte
  instr  : Byte
  p0     : Byte
  p1     : Byte
  p2     : Byte
  p3     : Byte
  chk    : Byte
deriving DecidableEq, Repr, Inhabited

/-- The errors of the block that reach the host (R111): each ends its operation with a result of its own. -/
inductive CodecError where
  /-- `EncodingError` with its set of reasons (R112). -/
  | encodingError (reasons : BitVec 3)
  /-- `TimeoutError` (R113). -/
  | timeout
deriving DecidableEq, Repr

/-- The causes of the internal outcome `InvalidFrame` (R114). -/
inductive InvalidFrame where
  | badLength
  | badChecksum
deriving DecidableEq, Repr

/-- Why a step stops with a fault. None of these can happen in a state that a run from reset reaches. -/
inductive Fault where
  /-- `ENG` holds 3 (R16: record a fault and take no step). Raised by `step`, whatever the turn, and by the acceptance of a
  command. Safe (log entry 3). -/
  | engReserved
  /-- `DSTATE` holds 5, 6 or 7 (R17: record a fault and take no step). Raised by `step`, whatever the turn, and by the
  acceptance of a command. Safe (log entry 3). -/
  | dstateReserved
  /-- While a frame is sent, `TX_N` or `TX_I` is outside the legal values of R15, so that R59 or R60 names a byte of
  `TXBUF` that does not exist. Raised by the TX_ACCEPT event. Safe (log entry 4). -/
  | txIndexOutOfRange
  /-- While a frame is read, `RX_HI`, `RX_NP` or `RX_PI` is outside what R68, R71 or R72 can use. Raised by the RX_BYTE
  event. Safe (log entry 4). -/
  | captureIndexOutOfRange
deriving DecidableEq, Repr

/-- Why an instruction is refused. -/
inductive Refusal where
  /-- The instruction has no meaning in the model yet. Raised by `exec` alone; every instruction has one. Safe. -/
  | notModelled (mnemonic : String)
deriving DecidableEq, Repr

/-- The block's complete state (R15), and after it the data of the environment (R5) that one step reads. -/
structure State where
  /-- `ENG` (R16). -/
  eng      : Eng
  /-- `DSTATE` (R17). -/
  dstate   : DState
  /-- `TXBUF[0..9]` (R18). -/
  txBuf    : Vector Byte 10
  /-- `TX_N` (R18). -/
  txN      : BitVec 4
  /-- `TX_I` (R18). -/
  txI      : BitVec 4
  /-- `RX_ADDR` (R19). -/
  rxAddr   : Byte
  /-- `RX_LEN` (R19). -/
  rxLen    : Byte
  /-- `RX_INSTR` (R19). -/
  rxInstr  : Byte
  /-- `RX_HI` (R19). -/
  rxHi     : BitVec 2
  /-- `RX_NP` (R19). -/
  rxNp     : BitVec 3
  /-- `RX_PI` (R19). -/
  rxPi     : BitVec 3
  /-- `RX_P[0..3]` (R19). -/
  rxP      : Vector Byte 4
  /-- `RES_VALID` (R21). -/
  resValid : Bool
  /-- `RES` (R20). -/
  res      : Result
  /-- Environment: what the host will present, in order; it presents the first item that R53 does not skip. -/
  hostQueue : List HostItem
  /-- Environment: the host's own note that the command it had accepted last completed with TX_DONE, which decides whether it
  presents the DECODE of a QUERY (R53; log entry 6). -/
  sawTxDone : Bool
  /-- Environment: the bytes the RX source holds, oldest first (R31). -/
  rxSource : List Byte
  /-- Environment: the bytes the TX sink has accepted, oldest first (R29). -/
  txSink   : List Byte
  /-- Environment: the turns the agents take next (R5; log entry 1). -/
  schedule : List Turn
  /-- The model's own: how many free turns have been taken (log entry 1). -/
  turnNo   : Nat
deriving DecidableEq, Repr

/-- The all-zero result: `RES` after reset (R15), and the fields that R49 leaves 0. -/
def Result.zero : Result :=
  { kind := .txDone, reason := 0, rnp := 0, addr := 0, len := 0, instr := 0, p0 := 0, p1 := 0, p2 := 0, p3 := 0, chk := 0 }

/-- The machine right after power-on, which is a reset (R15, R127). The environment holds nothing (log entry 12). -/
def State.reset : State :=
  { eng := .idle, dstate := .seekMarker1
    txBuf := #v[0, 0, 0, 0, 0, 0, 0, 0, 0, 0], txN := 0, txI := 0
    rxAddr := 0, rxLen := 0, rxInstr := 0, rxHi := 0, rxNp := 0, rxPi := 0, rxP := #v[0, 0, 0, 0]
    resValid := false, res := Result.zero
    hostQueue := [], sawTxDone := false, rxSource := [], txSink := [], schedule := [], turnNo := 0 }

end Sys2Proof.Machine
end

