-- ==== Sys2Proof/Machine/Operands.lean ====
section
/-! DEFINITION. What an ENCODE computes from its operands: the parameter list, the validation, the checksum and the frame
(40_encoder.md R54 to R58), and the symbols' table of values is in Machine/Assembler.lean. -/

namespace Sys2Proof.Machine

/-- The integer sum of a byte sequence (R10: no wrap). -/
def byteSum : List Byte → Nat
  | [] => 0
  | b :: bs => b.toNat + byteSum bs

/-- The checksum `chk(s) = 255 - (sum(s) mod 256)` (R54). -/
def chk (bs : List Byte) : Byte := BitVec.ofNat 8 (255 - byteSum bs % 256)

/-- The parameter bytes of an ENCODE: the first `NPARAM` of `P0` .. `P3` (R57; the others are ignored, R46). -/
def params (o : EncOperands) : List Byte := [o.p0, o.p1, o.p2, o.p3].take o.nparam.toNat

/-- The header and parameter bytes of a frame, which the checksum covers (R42): `[a, 3 + n, i] ++ ps`. -/
def frameBody (a i : Byte) (ps : List Byte) : List Byte :=
  [a, BitVec.ofNat 8 (Config.lenBias + ps.length), i] ++ ps

/-- `frame(a, i, ps)` (R56, R37): two markers, the body and the checksum. -/
def frame (a i : Byte) (ps : List Byte) : List Byte :=
  [Config.marker, Config.marker] ++ frameBody a i ps ++ [chk (frameBody a i ps)]

/-- `BAD_ADDR`, bit 0 of a reason set (R48, R58). -/
def badAddr : BitVec 3 := 1
/-- `BAD_INSTR`, bit 1 of a reason set (R48, R58). -/
def badInstr : BitVec 3 := 2
/-- `BAD_NPARAM`, bit 2 of a reason set (R48, R58). -/
def badNParam : BitVec 3 := 4

/-- `encode_check(a, i, np)` (R58): every condition that holds sets its own bit (R117). -/
def encodeCheck (a i : Byte) (np : BitVec 3) : BitVec 3 :=
  (if Config.maxAddr < a.toNat then badAddr else 0) |||
    ((if isValidOpcode i then 0 else badInstr) |||
      (if Config.maxParams < np.toNat then badNParam else 0))

end Sys2Proof.Machine
end

