-- ==== Sys2Proof/Machine/Flags.lean ====
section
/-! DEFINITION. What the host reads: the codes of the state elements, `READY` and `STATUS` (R22), and the packing of `RES`
(R48). Reading has no side effect (R23), so these are plain functions of the state. -/

namespace Sys2Proof.Machine

/-- The 2-bit code of `ENG` (R15). -/
def Eng.code : Eng → BitVec 2
  | .idle => 0
  | .encode => 1
  | .decode => 2
  | .reserved => 3

/-- The 3-bit code of `DSTATE` (R15). -/
def DState.code : DState → BitVec 3
  | .seekMarker1 => 0
  | .seekMarker2 => 1
  | .readHeader => 2
  | .readParams => 3
  | .readChecksum => 4
  | .reserved5 => 5
  | .reserved6 => 6
  | .reserved7 => 7

/-- Is `DSTATE` one of the values 5 to 7 (R17)? -/
def DState.isReserved : DState → Bool
  | .reserved5 | .reserved6 | .reserved7 => true
  | .seekMarker1 | .seekMarker2 | .readHeader | .readParams | .readChecksum => false

/-- The 2-bit code of `KIND` (R48). -/
def Kind.code : Kind → BitVec 2
  | .txDone => 0
  | .frame => 1
  | .timeout => 2
  | .encodingError => 3

/-- `READY = (ENG = IDLE)` (R15, R22). -/
def ready (s : State) : Bool := s.eng == .idle

/-- `STATUS`: bit 0 is `READY`, bit 1 is `RES_VALID`, the others read 0 (R22). -/
def status (s : State) : BitVec 8 :=
  place 8 (BitVec.ofBool (ready s)) 0 ||| place 8 (BitVec.ofBool s.resValid) 1

/-- The packing of `RES` (R48). -/
def Result.pack (r : Result) : ResWord :=
  place 72 r.kind.code 0 ||| place 72 r.reason 2 ||| place 72 r.rnp 5 ||| place 72 r.addr 8 ||| place 72 r.len 16 |||
    place 72 r.instr 24 ||| place 72 r.p0 32 ||| place 72 r.p1 40 ||| place 72 r.p2 48 ||| place 72 r.p3 56 |||
    place 72 r.chk 64

/-- `RES` as the host reads it (R20, R23). -/
def readRes (s : State) : ResWord := s.res.pack

end Sys2Proof.Machine
end

