-- ==== Sys2Proof/Machine/Ops.lean ====
section
/-! DEFINITION. The operations that the meanings and the events share: the command port, completion and the reporting of
errors, discarding, the capture registers, the transmit buffer, reset, and the agents' turns. -/

namespace Sys2Proof.Machine

/-- The outcome of a step of this machine. -/
abbrev Out := Host.Outcome State Fault Refusal

/-! ### The command port (R44, R45, R53, R132) -/

/-- The word the host presents to an idle engine and what it will present after it; `txDone` says that the command it had
accepted last completed with TX_DONE. A word that waits for TX_DONE is skipped when that command ended otherwise (R53). -/
def hostOffer (txDone : Bool) : List HostItem → Option (CmdWord × List HostItem)
  | [] => none
  | .word w :: rest => some (w, rest)
  | .afterTxDone w :: rest => if txDone then some (w, rest) else hostOffer txDone rest

/-- `CMD`, if `CMD_VALID = 1`: the word on the command port while the engine is idle (R44, R45). Nothing but its acceptance
takes it off the port, and reset does not either (R132; log entry 6). -/
def presentedCmd (s : State) : Option CmdWord := (hostOffer s.sawTxDone s.hostQueue).map Prod.fst

/-- What the host will present once the word on the port has been accepted. -/
def hostRest (s : State) : List HostItem := ((hostOffer s.sawTxDone s.hostQueue).map Prod.snd).getD []

/-- The state part of every acceptance: the word is off the port, `RES_VALID <- 0` (R21, R45), and the host has no result of
this command yet. -/
def takeCmd (s : State) : State := { s with hostQueue := hostRest s, resValid := false, sawTxDone := false }

/-! ### Illegal engine states (R16, R17) -/

/-- Go on as `k` says unless `ENG` or `DSTATE` holds a value that is never written: then fault (R16, R17). -/
def guardLegal (s : State) (k : Out) : Out :=
  if s.eng = .reserved then .fault .engReserved
  else if s.dstate.isReserved then .fault .dstateReserved
  else k

/-- Acceptance of a command (R45): only an idle engine accepts, and `start` is what the operation does in that step.
While the engine is busy nothing changes and the host keeps presenting the word. -/
def accept (start : State → State) (s : State) : Out :=
  guardLegal s (if s.eng = .idle then .next (start (takeCmd s)) else .next s)

/-! ### Completion and errors (R11, R20, R118) -/

/-- `complete(...)`: write `RES`, `RES_VALID <- 1`, `ENG <- IDLE` (R11, R20, R21); the host notes whether it was TX_DONE. -/
def complete (r : Result) (s : State) : State :=
  { s with res := r, resValid := true, eng := .idle, sawTxDone := r.kind == .txDone }

/-- The result that reports an error: its `KIND` and reasons, every other field 0 (R49, R111). -/
def CodecError.result : CodecError → Result
  | .encodingError reasons => { Result.zero with kind := .encodingError, reason := reasons }
  | .timeout => { Result.zero with kind := .timeout }

/-- Taking an error (R118): report it as the result of the operation it ends, and nothing more. Nothing is saved and there
is no return from it (R119). -/
def raise (e : CodecError) (s : State) : State := complete e.result s

/-- `discard(cause)`: the internal `InvalidFrame` writes nothing but `DSTATE`; no counter records the cause (R114). -/
def discardFrame (_cause : InvalidFrame) (s : State) : State := { s with dstate := .seekMarker1 }

/-! ### The receive capture registers (R19) -/

/-- All capture registers set to 0 (R19, R64, R66). -/
def clearCapture (s : State) : State :=
  { s with rxAddr := 0, rxLen := 0, rxInstr := 0, rxHi := 0, rxNp := 0, rxPi := 0, rxP := #v[0, 0, 0, 0] }

/-- Parameter byte `j` of a list of `n` parameters, 0 from `n` on (R49). -/
def paramOrZero (bytes : List Byte) (n j : Nat) : Byte := if j < n then bytes[j]?.getD 0 else 0

/-- The bytes that the checksum of the frame being read covers (R72). -/
def capturedBody (s : State) : List Byte :=
  [s.rxAddr, s.rxLen, s.rxInstr] ++ s.rxP.toList.take s.rxNp.toNat

/-! ### The transmit buffer (R18) -/

/-- `TXBUF[0 .. len(f)-1] <- f`; later bytes are left as they were (R18, R57). -/
def writeFrame (buf : Vector Byte 10) (f : List Byte) : Vector Byte 10 := Vector.ofFn fun j => f[j.val]?.getD buf[j]

/-- `TXBUF[j]`, for `j` at most 9. -/
def txByte (s : State) (j : Nat) : Byte := s.txBuf[j]?.getD 0

/-- The byte on offer to the TX sink: `TXBUF[TX_I]` while `ENG = ENCODE` (R18). -/
def byteOnOffer (s : State) : Option Byte := if s.eng = .encode then s.txBuf[s.txI.toNat]? else none

/-! ### Reset (R127, R130) -/

/-- The reset event: every element of R15 takes its reset value, and the environment keeps what it has (R130). -/
def resetBlock (s : State) : State :=
  { State.reset with
    hostQueue := s.hostQueue, sawTxDone := s.sawTxDone, rxSource := s.rxSource, txSink := s.txSink, schedule := s.schedule
    turnNo := s.turnNo }

/-! ### The read call that is outstanding (R76) -/

/-- A read call of the decoder to its transport: how many bytes it asked for and how many it has received. -/
structure ReadCall where
  size     : Nat
  received : Nat
deriving DecidableEq, Repr

/-- The read call outstanding in a DECODE (R76): 1 byte in each marker state, 3 for the header, `RX_NP` for the parameters,
1 for the checksum. -/
def readCall (s : State) : Option ReadCall :=
  if s.eng = .decode then
    match s.dstate with
    | .seekMarker1 | .seekMarker2 | .readChecksum => some { size := 1, received := 0 }
    | .readHeader => some { size := 3, received := s.rxHi.toNat }
    | .readParams => some { size := s.rxNp.toNat, received := s.rxPi.toNat }
    | .reserved5 | .reserved6 | .reserved7 => none
  else none

/-! ### The agents' turns (R5; log entry 1) -/

/-- The turn taken next: the schedule's first, or a free one when the schedule is empty. -/
def nextTurn (s : State) : Turn := s.schedule.head?.getD (Config.freeTurn s.turnNo)

/-- The state once its next turn has been chosen. -/
def popTurn (s : State) : State :=
  match s.schedule with
  | [] => { s with turnNo := s.turnNo + 1 }
  | _ :: rest => { s with schedule := rest }

/-- The event of the block that an agent's turn is, in this state (R6); none if no rule enables one (R12). -/
def enabledEvent (t : Turn) (s : State) : Option Event :=
  match t with
  | .host => if s.eng = .idle then (presentedCmd s).map .accept else none
  | .txAccept => if s.eng = .encode then some .txAccept else none
  | .rxDeliver => if s.eng = .decode then s.rxSource.head?.map .rxByte else none
  | .timeout => if s.eng = .decode then some .timeout else none
  | .reset => some .reset
  | .present _ | .arrive _ | .wait => none

/-- What a turn without an event of the block does: the host lines up one more item, a byte reaches the RX source, or
nothing at all (R31; log entry 2). -/
def environmentMove (t : Turn) (s : State) : State :=
  match t with
  | .present i => { s with hostQueue := s.hostQueue ++ [i] }
  | .arrive b => { s with rxSource := s.rxSource ++ [b] }
  | .host | .txAccept | .rxDeliver | .timeout | .reset | .wait => s

end Sys2Proof.Machine
end

