-- ==== Sys2Proof/Machine/DecodeOp.lean ====
section
/-! DEFINITION. DECODE (41_decoder.md R64): the step that accepts it. Its later steps are the events of
Machine/Receive.lean. -/

namespace Sys2Proof.Machine

/-- What a DECODE does in the step that accepts it (R64). -/
def startDecode (s : State) : State := { clearCapture s with eng := .decode, dstate := .seekMarker1 }

/-- `DECODE` (R64, R45). -/
def execDecode (s : State) : Out := accept startDecode s

end Sys2Proof.Machine
end

