-- ==== Sys2Proof/Machine/EncodeOp.lean ====
section
/-! DEFINITION. ENCODE (40_encoder.md R57, R58): the shared operation of all ENCODE rows and the meaning of the generic
row. -/

namespace Sys2Proof.Machine

/-- What an ENCODE with instruction byte `v` does in the step that accepts it (R57): report the reasons why it is illegal
(R58, R112), or build the whole frame in `TXBUF` and put its first byte on offer. -/
def startEncode (v : Byte) (o : EncOperands) (s : State) : State :=
  let reasons := encodeCheck o.addr v o.nparam
  if reasons ≠ 0 then raise (.encodingError reasons) s
  else
    let f := frame o.addr v (params o)
    { s with txBuf := writeFrame s.txBuf f, txN := BitVec.ofNat 4 f.length, txI := 0, eng := .encode }

/-- ENCODE with instruction byte `v` (R57, R45). -/
def encodeCommand (v : Byte) (o : EncOperands) (s : State) : Out := accept (startEncode v o) s

/-- `ENCODE` (R57). -/
def execEncode (o : EncOperands) (v : Byte) (s : State) : Out := encodeCommand v o s

end Sys2Proof.Machine
end

