-- ==== Sys2Proof/Machine/LimitCommands.lean ====
section
/-! DEFINITION. The angle-offset and limit commands, instruction bytes 17 to 25 (42_opcode_values.md R90 to R98): each is an ENCODE with its own
instruction byte, and the codec treats all alike. -/

namespace Sys2Proof.Machine

/-- `ANGLE_OFFSET_ADJUST` (R90): ENCODE with instruction byte 17. -/
def execAngleOffsetAdjust (o : EncOperands) (s : State) : Out := encodeCommand 17 o s

/-- `ANGLE_OFFSET_WRITE` (R91): ENCODE with instruction byte 18. -/
def execAngleOffsetWrite (o : EncOperands) (s : State) : Out := encodeCommand 18 o s

/-- `ANGLE_OFFSET_READ` (R92): ENCODE with instruction byte 19. -/
def execAngleOffsetRead (o : EncOperands) (s : State) : Out := encodeCommand 19 o s

/-- `ANGLE_LIMIT_WRITE` (R93): ENCODE with instruction byte 20. -/
def execAngleLimitWrite (o : EncOperands) (s : State) : Out := encodeCommand 20 o s

/-- `ANGLE_LIMIT_READ` (R94): ENCODE with instruction byte 21. -/
def execAngleLimitRead (o : EncOperands) (s : State) : Out := encodeCommand 21 o s

/-- `VOLTAGE_LIMIT_WRITE` (R95): ENCODE with instruction byte 22. -/
def execVoltageLimitWrite (o : EncOperands) (s : State) : Out := encodeCommand 22 o s

/-- `VOLTAGE_LIMIT_READ` (R96): ENCODE with instruction byte 23. -/
def execVoltageLimitRead (o : EncOperands) (s : State) : Out := encodeCommand 23 o s

/-- `TEMPERATURE_LIMIT_WRITE` (R97): ENCODE with instruction byte 24. -/
def execTemperatureLimitWrite (o : EncOperands) (s : State) : Out := encodeCommand 24 o s

/-- `TEMPERATURE_LIMIT_READ` (R98): ENCODE with instruction byte 25. -/
def execTemperatureLimitRead (o : EncOperands) (s : State) : Out := encodeCommand 25 o s

end Sys2Proof.Machine
end

