-- ==== Sys2Proof/Machine/MoveCommands.lean ====
section
/-! DEFINITION. The move and id commands, instruction bytes 1 to 14 (42_opcode_values.md R82 to R89): each is an ENCODE with its own
instruction byte, and the codec treats all alike. -/

namespace Sys2Proof.Machine

/-- `MOVE` (R82): ENCODE with instruction byte 1. -/
def execMove (o : EncOperands) (s : State) : Out := encodeCommand 1 o s

/-- `MOVE_READ` (R83): ENCODE with instruction byte 2. -/
def execMoveRead (o : EncOperands) (s : State) : Out := encodeCommand 2 o s

/-- `MOVE_WAIT_WRITE` (R84): ENCODE with instruction byte 7. -/
def execMoveWaitWrite (o : EncOperands) (s : State) : Out := encodeCommand 7 o s

/-- `MOVE_WAIT_READ` (R85): ENCODE with instruction byte 8. -/
def execMoveWaitRead (o : EncOperands) (s : State) : Out := encodeCommand 8 o s

/-- `MOVE_START` (R86): ENCODE with instruction byte 11. -/
def execMoveStart (o : EncOperands) (s : State) : Out := encodeCommand 11 o s

/-- `MOVE_STOP` (R87): ENCODE with instruction byte 12. -/
def execMoveStop (o : EncOperands) (s : State) : Out := encodeCommand 12 o s

/-- `ID_WRITE` (R88): ENCODE with instruction byte 13. -/
def execIdWrite (o : EncOperands) (s : State) : Out := encodeCommand 13 o s

/-- `ID_READ` (R89): ENCODE with instruction byte 14. -/
def execIdRead (o : EncOperands) (s : State) : Out := encodeCommand 14 o s

end Sys2Proof.Machine
end

