-- ==== Sys2Proof/Machine/ServoCommands.lean ====
section
/-! DEFINITION. The reading, mode, load and LED commands, instruction bytes 26 to 36 (42_opcode_values.md R99 to R109): each is an ENCODE with its own
instruction byte, and the codec treats all alike. -/

namespace Sys2Proof.Machine

/-- `TEMPERATURE_READ` (R99): ENCODE with instruction byte 26. -/
def execTemperatureRead (o : EncOperands) (s : State) : Out := encodeCommand 26 o s

/-- `VOLTAGE_READ` (R100): ENCODE with instruction byte 27. -/
def execVoltageRead (o : EncOperands) (s : State) : Out := encodeCommand 27 o s

/-- `POSITION_READ` (R101): ENCODE with instruction byte 28. -/
def execPositionRead (o : EncOperands) (s : State) : Out := encodeCommand 28 o s

/-- `MODE_WRITE` (R102): ENCODE with instruction byte 29. -/
def execModeWrite (o : EncOperands) (s : State) : Out := encodeCommand 29 o s

/-- `MODE_READ` (R103): ENCODE with instruction byte 30. -/
def execModeRead (o : EncOperands) (s : State) : Out := encodeCommand 30 o s

/-- `LOAD_WRITE` (R104): ENCODE with instruction byte 31. -/
def execLoadWrite (o : EncOperands) (s : State) : Out := encodeCommand 31 o s

/-- `LOAD_READ` (R105): ENCODE with instruction byte 32. -/
def execLoadRead (o : EncOperands) (s : State) : Out := encodeCommand 32 o s

/-- `LED_WRITE` (R106): ENCODE with instruction byte 33. -/
def execLedWrite (o : EncOperands) (s : State) : Out := encodeCommand 33 o s

/-- `LED_READ` (R107): ENCODE with instruction byte 34. -/
def execLedRead (o : EncOperands) (s : State) : Out := encodeCommand 34 o s

/-- `LED_ERROR_WRITE` (R108): ENCODE with instruction byte 35. -/
def execLedErrorWrite (o : EncOperands) (s : State) : Out := encodeCommand 35 o s

/-- `LED_ERROR_READ` (R109): ENCODE with instruction byte 36. -/
def execLedErrorRead (o : EncOperands) (s : State) : Out := encodeCommand 36 o s

end Sys2Proof.Machine
end

