-- ==== Sys2Proof/Machine/Dispatch.lean ====
section
/-! DEFINITION. The meaning of every instruction: one arm per constructor. -/

namespace Sys2Proof.Machine
open Sys2Proof

def exec (i : Instr) (s : State) : Host.Outcome State Fault Refusal :=
  match i with
  | .encode o v => Sys2Proof.Machine.execEncode o v s
  | .decode => Sys2Proof.Machine.execDecode s
  | .move o => Sys2Proof.Machine.execMove o s
  | .moveRead o => Sys2Proof.Machine.execMoveRead o s
  | .moveWaitWrite o => Sys2Proof.Machine.execMoveWaitWrite o s
  | .moveWaitRead o => Sys2Proof.Machine.execMoveWaitRead o s
  | .moveStart o => Sys2Proof.Machine.execMoveStart o s
  | .moveStop o => Sys2Proof.Machine.execMoveStop o s
  | .idWrite o => Sys2Proof.Machine.execIdWrite o s
  | .idRead o => Sys2Proof.Machine.execIdRead o s
  | .angleOffsetAdjust o => Sys2Proof.Machine.execAngleOffsetAdjust o s
  | .angleOffsetWrite o => Sys2Proof.Machine.execAngleOffsetWrite o s
  | .angleOffsetRead o => Sys2Proof.Machine.execAngleOffsetRead o s
  | .angleLimitWrite o => Sys2Proof.Machine.execAngleLimitWrite o s
  | .angleLimitRead o => Sys2Proof.Machine.execAngleLimitRead o s
  | .voltageLimitWrite o => Sys2Proof.Machine.execVoltageLimitWrite o s
  | .voltageLimitRead o => Sys2Proof.Machine.execVoltageLimitRead o s
  | .temperatureLimitWrite o => Sys2Proof.Machine.execTemperatureLimitWrite o s
  | .temperatureLimitRead o => Sys2Proof.Machine.execTemperatureLimitRead o s
  | .temperatureRead o => Sys2Proof.Machine.execTemperatureRead o s
  | .voltageRead o => Sys2Proof.Machine.execVoltageRead o s
  | .positionRead o => Sys2Proof.Machine.execPositionRead o s
  | .modeWrite o => Sys2Proof.Machine.execModeWrite o s
  | .modeRead o => Sys2Proof.Machine.execModeRead o s
  | .loadWrite o => Sys2Proof.Machine.execLoadWrite o s
  | .loadRead o => Sys2Proof.Machine.execLoadRead o s
  | .ledWrite o => Sys2Proof.Machine.execLedWrite o s
  | .ledRead o => Sys2Proof.Machine.execLedRead o s
  | .ledErrorWrite o => Sys2Proof.Machine.execLedErrorWrite o s
  | .ledErrorRead o => Sys2Proof.Machine.execLedErrorRead o s

end Sys2Proof.Machine
end

