-- ==== Sys2Proof/Machine/Receive.lean ====
section
/-! DEFINITION. The RX_BYTE and TIMEOUT events of a DECODE (41_decoder.md R65 to R77), one definition per state of the
decoder. -/

namespace Sys2Proof.Machine

/-- The RX source hands its oldest byte over: reading is destructive (R30). -/
def consume (s : State) : State := { s with rxSource := s.rxSource.tail }

/-- RX_BYTE in SEEK_MARKER_1 (R65). -/
def rxSeekMarker1 (b : Byte) (s : State) : State :=
  if b = Config.marker then { s with dstate := .seekMarker2 } else s

/-- RX_BYTE in SEEK_MARKER_2 (R66): the second marker clears the capture registers; any other byte is discarded and is not
examined again. -/
def rxSeekMarker2 (b : Byte) (s : State) : State :=
  if b = Config.marker then { clearCapture s with dstate := .readHeader } else { s with dstate := .seekMarker1 }

/-- The length check after the third header byte (R69), with `RX_LEN` read in an earlier step: a length above 7 is
discarded without draining (R74); a length of 3 or less has no parameters (R70). -/
def lengthCheck (s : State) : State :=
  if Config.maxRxLen < s.rxLen.toNat then discardFrame .badLength s
  else
    let n := s.rxLen.toNat - Config.lenBias
    let counted := { s with rxNp := BitVec.ofNat 3 n, rxPi := 0 }
    if 0 < n then { counted with dstate := .readParams } else { counted with dstate := .readChecksum }

/-- RX_BYTE in READ_HEADER (R68). -/
def rxReadHeader (b : Byte) (s : State) : Out :=
  match s.rxHi.toNat with
  | 0 => .next { s with rxAddr := b, rxHi := 1 }
  | 1 => .next { s with rxLen := b, rxHi := 2 }
  | 2 => .next (lengthCheck { s with rxInstr := b })
  | _ => .fault .captureIndexOutOfRange

/-- RX_BYTE in READ_PARAMS (R71). -/
def rxReadParams (b : Byte) (s : State) : Out :=
  if 3 < s.rxPi.toNat then .fault .captureIndexOutOfRange
  else
    let stored := { s with rxP := s.rxP.setIfInBounds s.rxPi.toNat b, rxPi := s.rxPi + 1 }
    if s.rxPi.toNat + 1 = s.rxNp.toNat then .next { stored with dstate := .readChecksum } else .next stored

/-- The result of a DECODE that has read a valid frame with checksum byte `c` (R49, R72). -/
def frameResult (c : Byte) (s : State) : Result :=
  let n := s.rxNp.toNat
  let ps := s.rxP.toList
  { kind := .frame, reason := 0, rnp := s.rxNp
    addr := s.rxAddr, len := s.rxLen, instr := s.rxInstr
    p0 := paramOrZero ps n 0, p1 := paramOrZero ps n 1, p2 := paramOrZero ps n 2, p3 := paramOrZero ps n 3
    chk := c }

/-- RX_BYTE in READ_CHECKSUM (R72): return the frame, or discard it and search on at the next byte (R73). -/
def rxReadChecksum (c : Byte) (s : State) : Out :=
  if 4 < s.rxNp.toNat then .fault .captureIndexOutOfRange
  else if c = chk (capturedBody s) then .next { complete (frameResult c s) s with dstate := .seekMarker1 }
  else .next (discardFrame .badChecksum s)

/-- RX_BYTE(b) while `ENG = DECODE`, the byte already consumed (R65 to R72). -/
def receive (b : Byte) (s : State) : Out :=
  match s.dstate with
  | .seekMarker1 => .next (rxSeekMarker1 b s)
  | .seekMarker2 => .next (rxSeekMarker2 b s)
  | .readHeader => rxReadHeader b s
  | .readParams => rxReadParams b s
  | .readChecksum => rxReadChecksum b s
  | .reserved5 | .reserved6 | .reserved7 => .fault .dstateReserved

/-- TIMEOUT while `ENG = DECODE`, in any state of the decoder (R77). -/
def timeoutEvent (s : State) : State := { raise .timeout s with dstate := .seekMarker1 }

end Sys2Proof.Machine
end

