-- ==== Sys2Proof/Machine/Transmit.lean ====
section
/-! DEFINITION. The TX_ACCEPT event (40_encoder.md R59, R60). -/

namespace Sys2Proof.Machine

/-- The result of an ENCODE whose last byte has been accepted, read back from `TXBUF` (R49, R60). -/
def txDoneResult (s : State) : Result :=
  let n := s.txN.toNat - 6
  let ps := s.txBuf.toList.drop 5
  { kind := .txDone, reason := 0, rnp := BitVec.ofNat 3 n
    addr := txByte s 2, len := txByte s 3, instr := txByte s 4
    p0 := paramOrZero ps n 0, p1 := paramOrZero ps n 1, p2 := paramOrZero ps n 2, p3 := paramOrZero ps n 3
    chk := txByte s (s.txN.toNat - 1) }

/-- TX_ACCEPT while `ENG = ENCODE` (R59): the sink takes the byte on offer; the next byte is offered, or the ENCODE
completes with TX_DONE (R60). Counters outside R15's legal values fault (log entry 4). -/
def txAccept (s : State) : Out :=
  if s.txN.toNat < 6 ∨ 10 < s.txN.toNat ∨ 9 < s.txI.toNat then .fault .txIndexOutOfRange
  else
    let taken := { s with txSink := s.txSink ++ [txByte s s.txI.toNat] }
    if s.txI.toNat + 1 < s.txN.toNat then .next { taken with txI := s.txI + 1 }
    else .next { complete (txDoneResult s) taken with txI := 0 }

end Sys2Proof.Machine
end

