-- ==== Sys2Proof/Machine/Events.lean ====
section
/-! DEFINITION. What one turn of an agent does to the machine (R5, R6, R12): the event it is, or, where no rule enables
one, the environment's own move. -/

namespace Sys2Proof.Machine

/-- One turn. Where `ENG` or `DSTATE` holds a value that is never written, no turn is a step, reset among them (R16, R17; log
entry 3). -/
def stepTurn (t : Turn) (s : State) : Out :=
  guardLegal s
    (match enabledEvent t s with
      | some .reset => .next (resetBlock s)
      | some (.accept w) => exec (decodeWord w) s
      | some .txAccept => txAccept s
      | some (.rxByte b) => receive b (consume s)
      | some .timeout => .next (timeoutEvent s)
      | none => .next (environmentMove t s))

end Sys2Proof.Machine
end

