-- ==== Sys2Proof/Machine/Step.lean ====
section
/-! DEFINITION. One step of the machine: its next turn, taken (R6). -/

namespace Sys2Proof.Machine

/-- One step: the next turn is chosen (log entry 1) and taken. -/
def step (s : State) : Host.Outcome State Fault Refusal := stepTurn (nextTurn s) (popTurn s)

/-- `s` with the command word `w` (its low `nbits` bits) first on the command port, the engine idle and the host's turn
next, so that the very next step accepts it and runs it (R45; log entry 7). -/
def State.withFetchWord (s : State) (nbits w : Nat) : State :=
  { s with
    eng := .idle
    dstate := if s.dstate.isReserved then .seekMarker1 else s.dstate
    hostQueue := .word (BitVec.ofNat 56 (w % 2 ^ nbits)) :: s.hostQueue
    schedule := .host :: s.schedule }

end Sys2Proof.Machine
end

