-- ==== Sys2Proof/Machine/Assembler.lean ====
section
/-! DEFINITION. The assembler of R52 and R53, as a function from the parts of a line to what the host presents. The names of
the instruction bytes are labels only (42_opcode_values.md; log entry 11), and the text of a line is already split into
its parts (log entry 18). -/

namespace Sys2Proof.Machine

/-- The operand `i` of a line: a number or a symbol (R52). -/
inductive AsmOpcode where
  | num (n : Nat)
  | sym (name : String)
deriving DecidableEq, Repr

/-- A line of a program (R52, R53). -/
inductive AsmLine where
  /-- `ENCODE a, i[, p0[, p1[, p2[, p3]]]]`. -/
  | encode (a : Nat) (i : AsmOpcode) (ps : List Nat)
  /-- `DECODE`. -/
  | decode
  /-- `.cmd 0x<14 hex digits>`: the word exactly as written. -/
  | cmd (w : CmdWord)
  /-- `QUERY a, i[, p...]` (R53). -/
  | query (a : Nat) (i : AsmOpcode) (ps : List Nat)
deriving DecidableEq, Repr

/-- The symbols of 42_opcode_values.md with their values. -/
def opcodeSymbols : List (String × Byte) :=
  [("MOVE", 1), ("MOVE_READ", 2), ("MOVE_WAIT_WRITE", 7), ("MOVE_WAIT_READ", 8),
    ("MOVE_START", 11), ("MOVE_STOP", 12), ("ID_WRITE", 13), ("ID_READ", 14)] ++
  [("ANGLE_OFFSET_ADJUST", 17), ("ANGLE_OFFSET_WRITE", 18), ("ANGLE_OFFSET_READ", 19), ("ANGLE_LIMIT_WRITE", 20),
    ("ANGLE_LIMIT_READ", 21), ("VOLTAGE_LIMIT_WRITE", 22), ("VOLTAGE_LIMIT_READ", 23), ("TEMPERATURE_LIMIT_WRITE", 24),
    ("TEMPERATURE_LIMIT_READ", 25)] ++
  [("TEMPERATURE_READ", 26), ("VOLTAGE_READ", 27), ("POSITION_READ", 28), ("MODE_WRITE", 29),
    ("MODE_READ", 30), ("LOAD_WRITE", 31), ("LOAD_READ", 32), ("LED_WRITE", 33),
    ("LED_READ", 34), ("LED_ERROR_WRITE", 35), ("LED_ERROR_READ", 36)]

/-- A numeric operand: outside 0 to 255 it has no encoding and the assembler refuses it (R52). -/
def asmByte (n : Nat) : Option Byte := if n ≤ 255 then some (BitVec.ofNat 8 n) else none

/-- The instruction byte a line names. -/
def asmOpcode : AsmOpcode → Option Byte
  | .num n => asmByte n
  | .sym name => opcodeSymbols.lookup name

/-- The parameter bytes of a line. -/
def asmBytes : List Nat → Option (List Byte)
  | [] => some []
  | n :: ns =>
    match asmByte n, asmBytes ns with
    | some b, some bs => some (b :: bs)
    | _, _ => none

/-- The word of `ENCODE a, i, ps`: `NPARAM` is the number of parameters, every unused byte and `CMD[7:4]` are 0; more than
four parameters have no syntax (R52). -/
def asmEncode (a : Nat) (i : AsmOpcode) (ps : List Nat) : Option CmdWord :=
  match asmByte a, asmOpcode i, asmBytes ps with
  | some ab, some ib, some bs =>
    if bs.length ≤ Config.maxParams then
      some (packEncode ib
        { nparam := BitVec.ofNat 3 bs.length, addr := ab
          p0 := bs[0]?.getD 0, p1 := bs[1]?.getD 0, p2 := bs[2]?.getD 0, p3 := bs[3]?.getD 0 })
    else none
  | _, _, _ => none

/-- What the host presents for a line (R52, R53), or none where the assembler refuses the line. -/
def assembleLine : AsmLine → Option (List HostItem)
  | .encode a i ps => (asmEncode a i ps).map fun w => [.word w]
  | .decode => some [.word 1]
  | .cmd w => some [.word w]
  | .query a i ps => (asmEncode a i ps).map fun w => [.word w, .afterTxDone 1]

/-- What the host presents for a program, line after line (R52). -/
def assemble : List AsmLine → Option (List HostItem)
  | [] => some []
  | l :: ls =>
    match assembleLine l, assemble ls with
    | some is, some rest => some (is ++ rest)
    | _, _ => none

end Sys2Proof.Machine
end

