-- ==== Sys2Proof/Safety.lean ====
section
/-! DEFINITION. What claims mean by a good state and a safe run: the invariant that every state reached from reset meets
(R15 to R21, R49), and a run that never stops (R116). -/

namespace Sys2Proof.Machine

/-- A complete legal frame is being sent: `TXBUF[0..TX_N-1]` is the frame of an address, an instruction byte and parameters
that R58 accepts, and `TX_I` points into it (R18, R57). -/
def SendingFrame (s : State) : Prop :=
  ∃ (a i : Byte) (ps : List Byte), a.toNat ≤ Config.maxAddr ∧ isValidOpcode i = true ∧ ps.length ≤ Config.maxParams ∧
    s.txN.toNat = ps.length + 6 ∧ s.txBuf.toList.take s.txN.toNat = frame a i ps ∧ s.txI.toNat < s.txN.toNat

/-- The capture counters agree with the decoder's state (R19, R68 to R71). -/
def CaptureAgrees (s : State) : Prop :=
  match s.dstate with
  | .seekMarker1 | .seekMarker2 => True
  | .readHeader => s.rxHi.toNat ≤ 2 ∧ s.rxNp = 0 ∧ s.rxPi = 0
  | .readParams =>
    s.rxLen.toNat ≤ Config.maxRxLen ∧ s.rxNp.toNat = s.rxLen.toNat - Config.lenBias ∧ s.rxPi.toNat < s.rxNp.toNat
  | .readChecksum =>
    s.rxLen.toNat ≤ Config.maxRxLen ∧ s.rxNp.toNat = s.rxLen.toNat - Config.lenBias ∧ s.rxPi = s.rxNp
  | .reserved5 | .reserved6 | .reserved7 => False

/-- The parameter bytes that a result reports. -/
def Result.params (r : Result) : List Byte := [r.p0, r.p1, r.p2, r.p3].take r.rnp.toNat

/-- What R49 says of each kind of result; a reported frame has the right checksum (R54, R72). -/
def Result.Sound (r : Result) : Prop :=
  r.rnp.toNat ≤ Config.maxParams ∧
  (r.rnp.toNat ≤ 0 → r.p0 = 0) ∧ (r.rnp.toNat ≤ 1 → r.p1 = 0) ∧
  (r.rnp.toNat ≤ 2 → r.p2 = 0) ∧ (r.rnp.toNat ≤ 3 → r.p3 = 0) ∧
  match r.kind with
  | .txDone =>
    r.reason = 0 ∧ r.addr.toNat ≤ Config.maxAddr ∧ isValidOpcode r.instr = true ∧
      r.len.toNat = Config.lenBias + r.rnp.toNat ∧ r.chk = Machine.chk ([r.addr, r.len, r.instr] ++ r.params)
  | .frame =>
    r.reason = 0 ∧ r.len.toNat ≤ Config.maxRxLen ∧ r.rnp.toNat = r.len.toNat - Config.lenBias ∧
      r.chk = Machine.chk ([r.addr, r.len, r.instr] ++ r.params)
  | .timeout => r = { Result.zero with kind := .timeout }
  | .encodingError => r.reason ≠ 0 ∧ r = { Result.zero with kind := .encodingError, reason := r.reason }

/-- The invariant of the block. Of the environment, which is free (R5), it says only that the host's note of a TX_DONE agrees
with what the block reports (R53). -/
structure Inv (s : State) : Prop where
  /-- `ENG` is never 3 (R16). -/
  engLegal : s.eng ≠ .reserved
  /-- `DSTATE` is never 5 to 7 (R17). -/
  dstateLegal : s.dstate.isReserved = false
  /-- The legal values of R15 for the counters. -/
  txNLegal : s.txN = 0 ∨ (6 ≤ s.txN.toNat ∧ s.txN.toNat ≤ 10)
  txILegal : s.txI.toNat ≤ 9
  rxHiLegal : s.rxHi.toNat ≤ 2
  rxNpLegal : s.rxNp.toNat ≤ 4
  rxPiLegal : s.rxPi.toNat ≤ 4
  /-- Outside a DECODE the decoder rests in SEEK_MARKER_1 (R17, R72, R77). -/
  decoderRests : s.eng ≠ .decode → s.dstate = .seekMarker1
  /-- Outside an ENCODE no byte is pending (R59). -/
  encoderRests : s.eng ≠ .encode → s.txI = 0
  sending : s.eng = .encode → SendingFrame s
  reading : s.eng = .decode → CaptureAgrees s
  /-- A result is valid only when no operation is in progress (R21, R45). -/
  busyNoResult : s.eng ≠ .idle → s.resValid = false
  /-- A valid result is one that R49 allows. -/
  resultSound : s.resValid = true → s.res.Sound
  /-- The host notes a TX_DONE only of a command that has completed. -/
  noteWhileBusy : s.eng ≠ .idle → s.sawTxDone = false
  /-- The host's note is what the valid result says. -/
  noteOfResult : s.resValid = true → s.sawTxDone = (s.res.kind == .txDone)

/-- The engine can accept a command: it is idle and no illegal value has been found (R16, R17, R45). -/
def Accepting (s : State) : Prop := s.eng = .idle ∧ s.dstate.isReserved = false

/-- The operands that R58 accepts: an address of 0 to 254 and a count of 0 to 4. -/
def LegalOperands (o : EncOperands) : Prop := o.addr.toNat ≤ Config.maxAddr ∧ o.nparam.toNat ≤ Config.maxParams

/-- The next step delivers byte `b` to a decoder in state `d`, and `rest` stays in the RX source (R30). -/
def Delivers (s : State) (d : DState) (b : Byte) (rest : List Byte) : Prop :=
  s.eng = .decode ∧ s.dstate = d ∧ nextTurn s = .rxDeliver ∧ s.rxSource = b :: rest

/-- The bytes on the wire of any frame with the right checksum, whatever its length byte says (R43, R70). -/
def wireFrame (a len i : Byte) (ps : List Byte) : List Byte :=
  [Config.marker, Config.marker, a, len, i] ++ ps ++ [chk ([a, len, i] ++ ps)]

/-- The length byte is one the decoder accepts, and it announces these parameters (R39). -/
def WellSized (len : Byte) (ps : List Byte) : Prop :=
  len.toNat ≤ Config.maxRxLen ∧ ps.length = len.toNat - Config.lenBias

/-- A safe run: however many steps are taken, none of them stops the machine. -/
def Safe (s : State) : Prop := ∀ k, ∃ t, core.run k s = .next t

end Sys2Proof.Machine
end

