-- ==== Sys2Proof/Certificates/Slice0/Obligations.lean ====
section
/-! DEFINITION. The statements for the provers, in the order of the spec's files, and before them the states and results
they name. -/

namespace Sys2Proof.Claims
open Sys2Proof.Machine

/-- The state after an ENCODE with instruction byte `v` and legal operands has been accepted (R57): the whole frame is in
`TXBUF`, its first byte is on offer, and nothing else has changed but the host's view of the command port. -/
def frameOnOffer (v : Byte) (o : EncOperands) (s : State) : State :=
  { s with
    hostQueue := hostRest s
    sawTxDone := false
    resValid := false
    txBuf := writeFrame s.txBuf (frame o.addr v (params o))
    txN := BitVec.ofNat 4 (o.nparam.toNat + 6)
    txI := 0
    eng := .encode }

/-- The result of a finished operation that reports the frame with these fields (R49): `Pj` is 0 from the number of
parameters on. -/
def frameReport (k : Kind) (a len i : Byte) (ps : List Byte) (c : Byte) : Result :=
  { kind := k, reason := 0, rnp := BitVec.ofNat 3 ps.length, addr := a, len := len, instr := i
    p0 := ps[0]?.getD 0, p1 := ps[1]?.getD 0, p2 := ps[2]?.getD 0, p3 := ps[3]?.getD 0, chk := c }

/-- Two command words that differ at most in bits the engine ignores (R46): `CMD[7:4]`, parameter bytes at index `NPARAM` or
above, and, in a DECODE, everything but `OP`. -/
def SameCommand (w w' : CmdWord) : Prop :=
  cmdOp w = cmdOp w' ∧
  (cmdOp w = 0 →
    cmdNParam w = cmdNParam w' ∧ cmdAddr w = cmdAddr w' ∧ cmdInstr w = cmdInstr w' ∧
    (0 < (cmdNParam w).toNat → cmdP0 w = cmdP0 w') ∧ (1 < (cmdNParam w).toNat → cmdP1 w = cmdP1 w') ∧
    (2 < (cmdNParam w).toNat → cmdP2 w = cmdP2 w') ∧ (3 < (cmdNParam w).toNat → cmdP3 w = cmdP3 w'))

/-- Every element of R15 in `t` is as in `s`: the two states differ at most in the environment. -/
def SameBlock (s t : State) : Prop :=
  t = { s with
        hostQueue := t.hostQueue, sawTxDone := t.sawTxDone, rxSource := t.rxSource, txSink := t.txSink, schedule := t.schedule
        turnNo := t.turnNo }

/-- The outcome `o` goes on to `t`, whatever the host notes of the result: its note is no element of R15 and follows
`Obligations.HostNoteFollowsTheResult` (log entry 6). -/
def GoesOnTo (o : Out) (t : State) : Prop := ∃ note, o = .next { t with sawTxDone := note }

/-- The host's turn at an idle engine with a word on the port: the steps that accept a command (R45). -/
def AcceptsNow (s : State) : Prop := nextTurn s = .host ∧ s.eng = .idle ∧ (presentedCmd s).isSome

/-- The step of `s` goes on to `t`, with this read call outstanding (R76): `RxAwait()` of the pseudocode. -/
def StepsAwaiting (s t : State) (size received : Nat) : Prop :=
  step s = .next t ∧ readCall t = some { size := size, received := received }

end Sys2Proof.Claims

open Sys2Proof Sys2Proof.Machine Sys2Proof.Claims

/-! ### 10_state.md, 20_memory.md -/

/-- R15, R127: what `State.reset` leaves in the block, as the host sees it and inside. The environment part of `State.reset`
is the model's choice (log entry 12) and is not stated. -/
def Obligations.PowerOnValues : Prop :=
  State.reset.eng = .idle ∧ State.reset.dstate = .seekMarker1 ∧ State.reset.txBuf = #v[0, 0, 0, 0, 0, 0, 0, 0, 0, 0] ∧
  State.reset.txN = 0 ∧ State.reset.txI = 0 ∧ State.reset.rxAddr = 0 ∧ State.reset.rxLen = 0 ∧ State.reset.rxInstr = 0 ∧
  State.reset.rxHi = 0 ∧ State.reset.rxNp = 0 ∧ State.reset.rxPi = 0 ∧ State.reset.rxP = #v[0, 0, 0, 0] ∧
  State.reset.resValid = false ∧ readRes State.reset = 0 ∧ status State.reset = 1

/-- R16: a state with `ENG = 3` faults and takes no step, whatever the turn, reset among them (log entry 3). -/
def Obligations.ReservedEngineValueFaults : Prop :=
  ∀ s : State, s.eng = .reserved → step s = .fault .engReserved

/-- R17: a state with `DSTATE` in 5 to 7 faults and takes no step, whatever the turn, reset among them (log entry 3), and
whatever `ENG` is (log entry 14; where `ENG = 3` too, the fault is that of R16). -/
def Obligations.ReservedDecoderValueFaults : Prop :=
  ∀ s : State, (s.dstate.code = 5 ∨ s.dstate.code = 6 ∨ s.dstate.code = 7) → s.eng ≠ .reserved →
    step s = .fault .dstateReserved

/-- R18, R57: writing a frame into `TXBUF` puts its bytes at `0 .. len(f)-1` and leaves the bytes after them as they were. -/
def Obligations.FrameWriteKeepsLaterBytes : Prop :=
  ∀ (buf : Vector Byte 10) (f : List Byte), f.length ≤ 10 →
    (writeFrame buf f).toList = f ++ buf.toList.drop f.length

/-- R20: outside reset only a completion writes `RES`: after a step either `RES` is as before, or the operation in progress
(or the one just accepted) has completed, with a kind of result that it can have. -/
def Obligations.OnlyCompletionWritesResult : Prop :=
  ∀ s t : State, step s = .next t → nextTurn s ≠ .reset →
    t.res = s.res ∨
    (t.resValid = true ∧ t.eng = .idle ∧
      ((s.eng = .encode ∧ t.res.kind = .txDone) ∨ (s.eng = .decode ∧ (t.res.kind = .frame ∨ t.res.kind = .timeout)) ∨
        (s.eng = .idle ∧ t.res.kind = .encodingError)))

/-- R21: the step that accepts a command ends with `RES_VALID = 1` exactly if the command completed in it; every other step
outside reset keeps `RES_VALID` or ends an operation and sets it. -/
def Obligations.ResultValidFollowsTheCommand : Prop :=
  ∀ s t : State, step s = .next t → nextTurn s ≠ .reset →
    (AcceptsNow s → t.resValid = (t.eng == .idle)) ∧
    (¬AcceptsNow s →
      (t.resValid = s.resValid ∧ t.eng = s.eng) ∨ (s.eng ≠ .idle ∧ t.eng = .idle ∧ t.resValid = true))

/-- R22: the bits of `STATUS`. -/
def Obligations.StatusBits : Prop :=
  ∀ s : State, (status s).getLsbD 0 = decide (s.eng = .idle) ∧ (status s).getLsbD 1 = s.resValid ∧
    (status s).extractLsb' 2 6 = 0

/-- R26, R29, R30, R31, R33: no step both sends and receives. The TX sink gains at most the one byte on offer, and only while
`ENG = ENCODE`; the RX source loses at most its oldest byte, and only while `ENG = DECODE`; a byte that arrives waits at its
end. -/
def Obligations.StreamsMoveOneByteHalfDuplex : Prop :=
  ∀ s t : State, step s = .next t →
    (t.txSink = s.txSink ∧ t.rxSource = s.rxSource) ∨
    (s.eng = .encode ∧ nextTurn s = .txAccept ∧ t.rxSource = s.rxSource ∧
      ∃ b, byteOnOffer s = some b ∧ t.txSink = s.txSink ++ [b]) ∨
    (s.eng = .decode ∧ nextTurn s = .rxDeliver ∧ t.txSink = s.txSink ∧ ∃ b, s.rxSource = b :: t.rxSource) ∨
    (t.txSink = s.txSink ∧ ∃ b, nextTurn s = .arrive b ∧ t.rxSource = s.rxSource ++ [b])

/-- R35: what the host presents later changes nothing in the operation in progress: two busy states that differ only in what
the host will present stop alike, or go on to states that differ only in it. -/
def Obligations.PortActivityDoesNotReachOperation : Prop :=
  ∀ (s t : State) (q : List HostItem), s.eng ≠ .idle →
    (step s = .next t → ∃ q', step { s with hostQueue := q } = .next { t with hostQueue := q' }) ∧
    ((∀ u, step s ≠ .next u) → step { s with hostQueue := q } = step s)

/-! ### 30_encoding.md -/

/-- R37, R56: the bytes of a frame, one by one, and its length. -/
def Obligations.FrameLayout : Prop :=
  ∀ (a i : Byte) (ps : List Byte), ps.length ≤ 4 →
    (frame a i ps).length = ps.length + 6 ∧
    (frame a i ps)[0]? = some 0x55 ∧ (frame a i ps)[1]? = some 0x55 ∧ (frame a i ps)[2]? = some a ∧
    (frame a i ps)[3]? = some (BitVec.ofNat 8 (3 + ps.length)) ∧ (frame a i ps)[4]? = some i ∧
    (∀ j, j < ps.length → (frame a i ps)[5 + j]? = ps[j]?) ∧
    (frame a i ps)[5 + ps.length]? = some (chk ([a, BitVec.ofNat 8 (3 + ps.length), i] ++ ps))

/-- R44, R50: decoding the word of a well-formed instruction gives it back, from the word and from its bytes. -/
def Obligations.DecodeOfEncodeIsTheInstruction : Prop :=
  ∀ i : Instr, i.wf = true →
    decodeWord (encode i) = i ∧ ∀ rest : List Byte, decode (bytesOfWord (encode i) ++ rest) = .ok (i, rest)

/-- R44, R46: every command word decodes to a well-formed instruction (log entry 5), and encoding that gives the word back with
only `CMD[7:4]` cleared in an ENCODE, and with everything but `OP` cleared in a DECODE. The parameter bytes of an ENCODE are
kept, those at index `NPARAM` or above among them: the engine ignores these, but they are operands of the instruction. -/
def Obligations.EncodeOfDecodeClearsReservedBits : Prop :=
  ∀ w : CmdWord, (decodeWord w).wf = true ∧
    (cmdOp w = 0 → encode (decodeWord w) = w &&& 0xFFFFFFFFFFFF0F) ∧ (cmdOp w = 1 → encode (decodeWord w) = 1)

/-- A few words written out from R44 and their instructions (95_test_vectors.md V-E1, V-E3, V-E12, V-E5, V-E19, P1). -/
def Obligations.CommandWordsDecodeAsTheSpecLaysThemOut : Prop :=
  decodeTableWord 56 0x00C800C8010108 = some (.move ⟨4, 1, 200, 0, 200, 0⟩) ∧
  decodeTableWord 56 0x000000001C0100 = some (.positionRead ⟨0, 1, 0, 0, 0, 0⟩) ∧
  decodeTableWord 56 0x000000020D0102 = some (.idWrite ⟨1, 1, 2, 0, 0, 0⟩) ∧
  decodeTableWord 56 0x0000000024FD00 = some (.ledErrorRead ⟨0, 253, 0, 0, 0, 0⟩) ∧
  decodeTableWord 56 0x00000000030100 = some (.encode ⟨0, 1, 0, 0, 0, 0⟩ 3) ∧
  decodeTableWord 56 0x00000000000001 = some .decode

/-- R45: an idle engine that is shown a word runs it in that step: the step is exec of the decoded instruction in the state
whose turn has been taken. -/
def Obligations.StepRunsTheDecodedInstruction : Prop :=
  ∀ (s : State) (w : CmdWord) (i : Instr), s.eng = .idle → nextTurn s = .host → presentedCmd s = some w →
    decodeWord w = i → step s = exec i (popTurn s)

/-- R45: acceptance takes the word off the port and clears `RES_VALID`, which is 1 afterwards only if the command completed in
the same step; while the engine is busy an instruction changes nothing, and the host keeps presenting the word. -/
def Obligations.OnlyAnIdleEngineAccepts : Prop :=
  (∀ (i : Instr) (s t : State), Accepting s → exec i s = .next t →
    t.hostQueue = hostRest s ∧ (t.resValid = true → t.eng = .idle ∧ t.res.kind = .encodingError)) ∧
  (∀ (i : Instr) (s : State), s.eng = .encode ∨ s.eng = .decode → s.dstate.isReserved = false → exec i s = .next s)

/-- R132, R53: a step that accepts takes exactly the word on the port off it, with whatever is skipped before it; any other step
leaves what the host will present, or lines up one more item at its end. The host queue is the model's (log entry 6). -/
def Obligations.EachWordIsAcceptedOnce : Prop :=
  ∀ s t : State, step s = .next t →
    (AcceptsNow s ∧ t.hostQueue = hostRest s ∧
      ∃ skipped item, s.hostQueue = skipped ++ item :: t.hostQueue ∧
        (∀ w, HostItem.word w ∉ skipped) ∧
        (∃ w, presentedCmd s = some w ∧ (item = .word w ∨ item = .afterTxDone w))) ∨
    (¬AcceptsNow s ∧
      (t.hostQueue = s.hostQueue ∨ ∃ i, nextTurn s = .present i ∧ t.hostQueue = s.hostQueue ++ [i]))

/-- R132, R45: a word on the port of an idle engine stays there until the step that accepts it, through reset and whatever else
happens (the DECODE of a QUERY too, once it is presented); so does a word at the head of what the host presents to a busy
engine. The host queue is the model's (log entry 6). -/
def Obligations.PresentedWordStaysUntilAccepted : Prop :=
  ∀ s t : State, step s = .next t → ¬AcceptsNow s →
    (∀ w, s.eng = .idle → presentedCmd s = some w → t.eng = .idle ∧ presentedCmd t = some w) ∧
    (∀ w q, s.hostQueue = .word w :: q → ∃ q', t.hostQueue = .word w :: q' ∧ presentedCmd t = some w)

/-- R53: what the host notes for its QUERYs (its own note, log entry 6). Acceptance clears it, a completion writes whether it was
TX_DONE, and no other step touches it: reset does not either. -/
def Obligations.HostNoteFollowsTheResult : Prop :=
  ∀ s t : State, step s = .next t →
    (AcceptsNow s → t.sawTxDone = false) ∧
    (s.eng ≠ .idle → t.eng = .idle → nextTurn s ≠ .reset → t.sawTxDone = (t.res.kind == .txDone)) ∧
    (¬AcceptsNow s → (s.eng = .idle ∨ t.eng ≠ .idle ∨ nextTurn s = .reset) → t.sawTxDone = s.sawTxDone)

/-- R46: bits that the engine ignores have no effect on any state. -/
def Obligations.IgnoredBitsHaveNoEffect : Prop :=
  ∀ (w w' : CmdWord) (s : State), SameCommand w w' → exec (decodeWord w) s = exec (decodeWord w') s

/-- R48: where each field stands in `RES`, and the codes of `KIND`. -/
def Obligations.ResultWordLayout : Prop :=
  (∀ r : Result,
    r.pack.extractLsb' 0 2 = r.kind.code ∧ r.pack.extractLsb' 2 3 = r.reason ∧ r.pack.extractLsb' 5 3 = r.rnp ∧
    r.pack.extractLsb' 8 8 = r.addr ∧ r.pack.extractLsb' 16 8 = r.len ∧ r.pack.extractLsb' 24 8 = r.instr ∧
    r.pack.extractLsb' 32 8 = r.p0 ∧ r.pack.extractLsb' 40 8 = r.p1 ∧ r.pack.extractLsb' 48 8 = r.p2 ∧
    r.pack.extractLsb' 56 8 = r.p3 ∧ r.pack.extractLsb' 64 8 = r.chk) ∧
  Kind.txDone.code = 0 ∧ Kind.frame.code = 1 ∧ Kind.timeout.code = 2 ∧ Kind.encodingError.code = 3 ∧
  badAddr = 0b001 ∧ badInstr = 0b010 ∧ badNParam = 0b100

/-- R48, R20: the packing loses nothing: results that read alike are alike. -/
def Obligations.ResultWordIsInjective : Prop := ∀ r r' : Result, r.pack = r'.pack → r = r'

/-- R51: the instruction byte has 28 legal values, the listed ones, and 228 illegal ones. -/
def Obligations.LegalInstructionBytes : Prop :=
  (∀ v : Byte, isValidOpcode v = true ↔
    (v.toNat = 1 ∨ v.toNat = 2 ∨ v.toNat = 7 ∨ v.toNat = 8 ∨ (11 ≤ v.toNat ∧ v.toNat ≤ 14) ∨
      (17 ≤ v.toNat ∧ v.toNat ≤ 36))) ∧
  ((List.range 256).filter fun n => isValidOpcode (BitVec.ofNat 8 n)).length = 28 ∧
  ((List.range 256).filter fun n => !isValidOpcode (BitVec.ofNat 8 n)).length = 228

/-- R52: the word of an assembler line `ENCODE a, i, ps` carries its operands, with every unused bit 0; the assembler refuses
exactly the operands outside 0 to 255 and more than four parameters. -/
def Obligations.AssembledEncodeWord : Prop :=
  ∀ (a i : Nat) (ps : List Nat),
    ((asmEncode a (.num i) ps).isSome ↔ a ≤ 255 ∧ i ≤ 255 ∧ (∀ p ∈ ps, p ≤ 255) ∧ ps.length ≤ 4) ∧
    ∀ w, asmEncode a (.num i) ps = some w →
      cmdOp w = 0 ∧ (cmdNParam w).toNat = ps.length ∧ (cmdAddr w).toNat = a ∧ (cmdInstr w).toNat = i ∧
      (cmdP0 w).toNat = ps[0]?.getD 0 ∧ (cmdP1 w).toNat = ps[1]?.getD 0 ∧ (cmdP2 w).toNat = ps[2]?.getD 0 ∧
      (cmdP3 w).toNat = ps[3]?.getD 0 ∧ w.extractLsb' 4 4 = 0

/-- R53: a QUERY is its ENCODE and then a DECODE; the host presents the DECODE to an idle engine exactly if the command it had
accepted last completed with TX_DONE, which is what the host noted (log entry 6) and, while it is valid, what `RES` says; and
otherwise what stands after it. -/
def Obligations.QueryDecodesOnlyAfterTxDone : Prop :=
  (∀ (a : Nat) (i : AsmOpcode) (ps : List Nat) (w : CmdWord), asmEncode a i ps = some w →
    assembleLine (.query a i ps) = some [.word w, .afterTxDone (encode .decode)]) ∧
  (∀ (s : State) (q : List HostItem), Accepting s → s.hostQueue = .afterTxDone (encode .decode) :: q →
    nextTurn s = .host →
    (s.sawTxDone = true →
      step s = .next { clearCapture (popTurn s) with
                       hostQueue := q, sawTxDone := false, resValid := false, eng := .decode, dstate := .seekMarker1 }) ∧
    (s.sawTxDone = false →
      presentedCmd s = presentedCmd { s with hostQueue := q } ∧
      (presentedCmd s ≠ none → step s = step { s with hostQueue := q }))) ∧
  (∀ s : State, Inv s → s.resValid = true → (s.sawTxDone = true ↔ s.res.kind = .txDone))

/-! ### 40_encoder.md -/

/-- R54, R55: the checksum and its three identities, and the largest sums the encoder and the decoder meet. -/
def Obligations.ChecksumIdentities : Prop :=
  (∀ s : List Byte, (chk s).toNat = 255 - byteSum s % 256) ∧
  (∀ s : List Byte, chk s = ~~~(BitVec.ofNat 8 (byteSum s)) ∧ chk s = BitVec.ofNat 8 (byteSum s) ^^^ 0xFF) ∧
  (∀ s : List Byte, (byteSum s + (chk s).toNat) % 256 = 255) ∧
  (∀ s s' : List Byte, byteSum s % 256 = byteSum s' % 256 → chk s = chk s') ∧
  (∀ s : List Byte, chk s = ~~~(s.foldl (· + ·) 0)) ∧
  (∀ (a i : Byte) (ps : List Byte), a.toNat ≤ 254 → isValidOpcode i = true → ps.length ≤ 4 →
    byteSum (frameBody a i ps) ≤ 1317) ∧
  byteSum (frameBody 254 36 [255, 255, 255, 255]) = 1317 ∧
  (∀ (a len i : Byte) (ps : List Byte), WellSized len ps → byteSum ([a, len, i] ++ ps) ≤ 1537) ∧
  byteSum [255, 7, 255, 255, 255, 255, 255] = 1537

/-- R57: ENCODE with legal operands, for the generic row and for every legal instruction byte: the frame is built in the step
that accepts the command, and its first marker is on offer. -/
def Obligations.EncodeBuildsItsFrame : Prop :=
  ∀ (v : Byte) (o : EncOperands) (s : State), Accepting s → LegalOperands o → isValidOpcode v = true →
    exec (.encode o v) s = .next (frameOnOffer v o s) ∧ byteOnOffer (frameOnOffer v o s) = some 0x55 ∧
    (frameOnOffer v o s).txBuf.toList = frame o.addr v (params o) ++ s.txBuf.toList.drop (o.nparam.toNat + 6)

/-- R58: an illegal ENCODE completes in the step that accepts it, with one REASON bit for each condition that holds, and
writes nothing but the result; every ENCODE word, of every row. -/
def Obligations.IllegalEncodeReportsEveryReason : Prop :=
  ∀ (w : CmdWord) (s : State), cmdOp w = 0 → Accepting s →
    ¬((cmdAddr w).toNat ≤ 254 ∧ isValidOpcode (cmdInstr w) = true ∧ (cmdNParam w).toNat ≤ 4) →
    ∃ r : BitVec 3,
      GoesOnTo (exec (decodeWord w) s)
        { s with
          hostQueue := hostRest s, resValid := true
          res := { kind := .encodingError, reason := r, rnp := 0, addr := 0, len := 0, instr := 0
                   p0 := 0, p1 := 0, p2 := 0, p3 := 0, chk := 0 } } ∧
      (r.getLsbD 0 = true ↔ (cmdAddr w).toNat = 255) ∧
      (r.getLsbD 1 = true ↔ isValidOpcode (cmdInstr w) = false) ∧
      (r.getLsbD 2 = true ↔ 4 < (cmdNParam w).toNat)

/-- R59: on TX_ACCEPT the sink takes the byte on offer, and the next one is on offer; the last one ends the ENCODE (what `RES`
then holds is `LastByteCompletesTheEncode`). No rule enables TX_ACCEPT while `ENG` is not ENCODE. -/
def Obligations.SinkTakesTheByteOnOffer : Prop :=
  (∀ s : State, s.eng = .encode → s.dstate.isReserved = false → nextTurn s = .txAccept →
    6 ≤ s.txN.toNat → s.txN.toNat ≤ 10 → s.txI.toNat < s.txN.toNat →
    ∃ b, byteOnOffer s = some b ∧
      (s.txI.toNat + 1 < s.txN.toNat →
        step s = .next { popTurn s with txSink := s.txSink ++ [b], txI := BitVec.ofNat 4 (s.txI.toNat + 1) }) ∧
      (s.txI.toNat + 1 = s.txN.toNat → ∃ t, step s = .next t ∧ t.res.kind = .txDone ∧
        t = { popTurn s with
              txSink := s.txSink ++ [b], txI := 0, eng := .idle, resValid := true, res := t.res
              sawTxDone := t.sawTxDone })) ∧
  (∀ s : State, s.eng ≠ .encode → enabledEvent .txAccept s = none)

/-- R60: the step in which the sink takes the last byte completes the ENCODE with TX_DONE, and `RES` holds the frame sent. -/
def Obligations.LastByteCompletesTheEncode : Prop :=
  ∀ s : State, s.eng = .encode → s.dstate.isReserved = false → nextTurn s = .txAccept →
    6 ≤ s.txN.toNat → s.txN.toNat ≤ 10 → s.txI.toNat + 1 = s.txN.toNat →
    GoesOnTo (step s)
      { popTurn s with
        txSink := s.txSink ++ [txByte s (s.txN.toNat - 1)]
        txI := 0, eng := .idle, resValid := true
        res := { kind := .txDone, reason := 0, rnp := BitVec.ofNat 3 (s.txN.toNat - 6)
                 addr := txByte s 2, len := txByte s 3, instr := txByte s 4
                 p0 := if 6 < s.txN.toNat then txByte s 5 else 0
                 p1 := if 7 < s.txN.toNat then txByte s 6 else 0
                 p2 := if 8 < s.txN.toNat then txByte s 7 else 0
                 p3 := if 9 < s.txN.toNat then txByte s 8 else 0
                 chk := txByte s (s.txN.toNat - 1) } }

/-- R57 to R60, R142: a legal ENCODE word, presented to an idle engine, puts exactly its frame on the wire, in the accepting
step and one step for each byte, and completes with TX_DONE; before that the engine is busy and has sent a beginning of the
frame. The steps are turns of the model's schedule, and the port is its host queue (log entries 1, 2 and 6). -/
def Obligations.EncodeSendsExactlyItsFrame : Prop :=
  ∀ (s : State) (w : CmdWord) (q : List HostItem) (turns : List Turn),
    Accepting s → cmdOp w = 0 → LegalOperands (cmdOperands w) → isValidOpcode (cmdInstr w) = true →
    s.hostQueue = .word w :: q →
    s.schedule = .host :: List.replicate ((cmdNParam w).toNat + 6) .txAccept ++ turns →
    (∃ t, core.run ((cmdNParam w).toNat + 7) s = .next t ∧
      t.txSink = s.txSink ++ frame (cmdAddr w) (cmdInstr w) (params (cmdOperands w)) ∧
      t.eng = .idle ∧ t.resValid = true ∧
      t.res = frameReport .txDone (cmdAddr w) (BitVec.ofNat 8 (3 + (cmdNParam w).toNat)) (cmdInstr w)
        (params (cmdOperands w))
        (chk ([cmdAddr w, BitVec.ofNat 8 (3 + (cmdNParam w).toNat), cmdInstr w] ++ params (cmdOperands w))) ∧
      t.txI = 0 ∧ t.hostQueue = q ∧ t.schedule = turns ∧ t.rxSource = s.rxSource) ∧
    ∀ k, k < (cmdNParam w).toNat + 6 →
      ∃ t, core.run (k + 1) s = .next t ∧ t.eng = .encode ∧ status t = 0 ∧
        t.txSink = s.txSink ++ (frame (cmdAddr w) (cmdInstr w) (params (cmdOperands w))).take k

/-- R63: while the sink does not accept, the ENCODE stays in progress with its frame and the byte on offer, through any number
of steps and whatever else happens but reset: the write side has no timeout, and nothing that the host, the RX source or the
timeout source does ends it. -/
def Obligations.StalledSinkWaits : Prop :=
  ∀ (stalled turns : List Turn) (s : State), (∀ x ∈ stalled, x ≠ .txAccept ∧ x ≠ .reset) →
    s.eng = .encode → s.dstate.isReserved = false → s.schedule = stalled ++ turns →
    ∃ t, core.run stalled.length s = .next t ∧ SameBlock s t ∧ t.txSink = s.txSink ∧ t.schedule = turns ∧
      t.eng = .encode ∧ byteOnOffer t = byteOnOffer s ∧ ready t = false ∧ (s.resValid = false → status t = 0)

/-! ### 41_decoder.md -/

/-- R64: the step that accepts a DECODE. -/
def Obligations.DecodeStartsInMarkerSearch : Prop :=
  ∀ s : State, Accepting s →
    exec .decode s =
      .next { s with
              hostQueue := hostRest s, sawTxDone := false, resValid := false, eng := .decode, dstate := .seekMarker1
              rxAddr := 0, rxLen := 0, rxInstr := 0, rxHi := 0, rxNp := 0, rxPi := 0, rxP := #v[0, 0, 0, 0] }

/-- R65: a byte in SEEK_MARKER_1. -/
def Obligations.FirstMarkerSearch : Prop :=
  ∀ (s : State) (b : Byte) (rest : List Byte), Delivers s .seekMarker1 b rest →
    StepsAwaiting s { popTurn s with rxSource := rest, dstate := if b = 0x55 then .seekMarker2 else .seekMarker1 } 1 0

/-- R66: a byte in SEEK_MARKER_2. -/
def Obligations.SecondMarkerSearch : Prop :=
  ∀ (s : State) (b : Byte) (rest : List Byte), Delivers s .seekMarker2 b rest →
    (b = 0x55 →
      StepsAwaiting s
        { popTurn s with
          rxSource := rest, dstate := .readHeader
          rxAddr := 0, rxLen := 0, rxInstr := 0, rxHi := 0, rxNp := 0, rxPi := 0, rxP := #v[0, 0, 0, 0] } 3 0) ∧
    (b ≠ 0x55 → StepsAwaiting s { popTurn s with rxSource := rest, dstate := .seekMarker1 } 1 0)

/-- R67, R138: a lone marker byte before a frame is paired with the frame's first marker, and the frame's second marker is
read as the address. -/
def Obligations.LoneMarkerStealsTheFrame : Prop :=
  ∀ (s : State) (a i : Byte) (ps rest : List Byte) (turns : List Turn),
    s.eng = .decode → s.dstate = .seekMarker1 → s.rxSource = 0x55 :: frame a i ps ++ rest →
    s.schedule = List.replicate 4 .rxDeliver ++ turns →
    ∃ t, core.run 4 s = .next t ∧ t.eng = .decode ∧ t.dstate = .readHeader ∧ t.rxAddr = 0x55 ∧ t.rxLen = a ∧ t.rxHi = 2 ∧
      t.resValid = s.resValid ∧ t.res = s.res

/-- R68, R69: the header bytes, and the length check in the step that reads the third: a length above 7 goes back to the
marker search with everything after the instruction byte still to be examined (R74), the others announce
`max(L - 3, 0)` parameters. -/
def Obligations.HeaderAndLengthCheck : Prop :=
  ∀ (s : State) (b : Byte) (rest : List Byte), Delivers s .readHeader b rest →
    (s.rxHi = 0 → StepsAwaiting s { popTurn s with rxSource := rest, rxAddr := b, rxHi := 1 } 3 1) ∧
    (s.rxHi = 1 → StepsAwaiting s { popTurn s with rxSource := rest, rxLen := b, rxHi := 2 } 3 2) ∧
    (s.rxHi = 2 → 7 < s.rxLen.toNat →
      StepsAwaiting s { popTurn s with rxSource := rest, rxInstr := b, dstate := .seekMarker1 } 1 0) ∧
    (s.rxHi = 2 → s.rxLen.toNat ≤ 7 → 3 < s.rxLen.toNat →
      StepsAwaiting s
        { popTurn s with
          rxSource := rest, rxInstr := b, rxNp := BitVec.ofNat 3 (s.rxLen.toNat - 3), rxPi := 0, dstate := .readParams }
        (s.rxLen.toNat - 3) 0) ∧
    (s.rxHi = 2 → s.rxLen.toNat ≤ 3 →
      StepsAwaiting s
        { popTurn s with rxSource := rest, rxInstr := b, rxNp := 0, rxPi := 0, dstate := .readChecksum } 1 0)

/-- R71: a parameter byte is stored at `RX_PI`, and the last one leads to READ_CHECKSUM. -/
def Obligations.ParameterBytesAreStored : Prop :=
  ∀ (s : State) (b : Byte) (rest : List Byte), Delivers s .readParams b rest → s.rxPi.toNat < 4 →
    ∃ t, step s = .next t ∧
      t = { popTurn s with
            rxSource := rest, rxP := t.rxP, rxPi := BitVec.ofNat 3 (s.rxPi.toNat + 1)
            dstate := if s.rxPi.toNat + 1 = s.rxNp.toNat then .readChecksum else .readParams } ∧
      (∀ j, j < 4 → t.rxP[j]? = if j = s.rxPi.toNat then some b else s.rxP[j]?) ∧
      readCall t =
        some (if s.rxPi.toNat + 1 = s.rxNp.toNat then { size := 1, received := 0 }
          else { size := s.rxNp.toNat, received := s.rxPi.toNat + 1 })

/-- R72, R73: the checksum byte: a match returns the frame, a mismatch discards it silently and searches on at the next
byte. -/
def Obligations.ChecksumDecidesTheFrame : Prop :=
  ∀ (s : State) (c : Byte) (rest : List Byte), Delivers s .readChecksum c rest → s.rxNp.toNat ≤ 4 →
    let ps := s.rxP.toList.take s.rxNp.toNat
    (c = chk ([s.rxAddr, s.rxLen, s.rxInstr] ++ ps) →
      GoesOnTo (step s)
        { popTurn s with
          rxSource := rest, eng := .idle, dstate := .seekMarker1, resValid := true
          res := frameReport .frame s.rxAddr s.rxLen s.rxInstr ps c }) ∧
    (c ≠ chk ([s.rxAddr, s.rxLen, s.rxInstr] ++ ps) →
      StepsAwaiting s { popTurn s with rxSource := rest, dstate := .seekMarker1 } 1 0)

/-- R76, R77: while a DECODE is in progress some read call of at least one byte is outstanding, of the size R76 gives. -/
def Obligations.ReadCallIsAlwaysOutstanding : Prop :=
  ∀ s : State, Inv s → s.eng = .decode →
    ∃ c : ReadCall, readCall s = some c ∧ c.received < c.size ∧
      c.size = (if s.dstate = .readHeader then 3 else if s.dstate = .readParams then s.rxNp.toNat else 1)

/-- R77: a TIMEOUT ends a DECODE in every state of the decoder, whether or not bytes wait, and leaves those bytes; no rule
enables it while no DECODE is in progress. -/
def Obligations.TimeoutEndsTheDecode : Prop :=
  (∀ s : State, s.eng = .decode → s.dstate.isReserved = false → nextTurn s = .timeout →
    GoesOnTo (step s)
      { popTurn s with
        eng := .idle, dstate := .seekMarker1, resValid := true
        res := { kind := .timeout, reason := 0, rnp := 0, addr := 0, len := 0, instr := 0
                 p0 := 0, p1 := 0, p2 := 0, p3 := 0, chk := 0 } }) ∧
  (∀ s : State, s.eng ≠ .decode → enabledEvent .timeout s = none)

/-- R78: a stream with no marker byte keeps a DECODE going through any number of steps. -/
def Obligations.NoiseKeepsTheDecodeAlive : Prop :=
  ∀ (noise rest : List Byte) (turns : List Turn) (s : State), (∀ b ∈ noise, b ≠ 0x55) →
    s.eng = .decode → s.dstate = .seekMarker1 → s.rxSource = noise ++ rest →
    s.schedule = List.replicate noise.length .rxDeliver ++ turns →
    core.run noise.length s = .next { s with rxSource := rest, schedule := turns }

/-- R79: encoding and then decoding the produced bytes gives back the same frame, even when its bytes equal the marker. -/
def Obligations.DecodeReturnsAnEncodedFrame : Prop :=
  ∀ (s : State) (a i : Byte) (ps rest : List Byte) (turns : List Turn),
    a.toNat ≤ 254 → isValidOpcode i = true → ps.length ≤ 4 →
    s.eng = .decode → s.dstate = .seekMarker1 → s.rxSource = frame a i ps ++ rest →
    s.schedule = List.replicate (ps.length + 6) .rxDeliver ++ turns →
    ∃ t, core.run (ps.length + 6) s = .next t ∧ t.eng = .idle ∧ t.dstate = .seekMarker1 ∧ t.resValid = true ∧
      t.res = frameReport .frame a (BitVec.ofNat 8 (3 + ps.length)) i ps
        (chk ([a, BitVec.ofNat 8 (3 + ps.length), i] ++ ps)) ∧
      t.rxSource = rest ∧ t.txSink = s.txSink ∧ t.schedule = turns

/-- R70, R75, R80: any frame with the right checksum and a length byte of 0 to 7, whatever its address and instruction byte, is
returned after garbage without a marker byte; and a byte other than the marker that leaves the decoder in a marker state
leaves it in SEEK_MARKER_1. -/
def Obligations.DecodeResynchronizes : Prop :=
  (∀ (s : State) (noise : List Byte) (a len i : Byte) (ps rest : List Byte) (turns : List Turn),
    (∀ b ∈ noise, b ≠ 0x55) → WellSized len ps →
    s.eng = .decode → s.dstate = .seekMarker1 → s.rxSource = noise ++ wireFrame a len i ps ++ rest →
    s.schedule = List.replicate (noise.length + ps.length + 6) .rxDeliver ++ turns →
    ∃ t, core.run (noise.length + ps.length + 6) s = .next t ∧ t.eng = .idle ∧ t.dstate = .seekMarker1 ∧
      t.resValid = true ∧ t.res = frameReport .frame a len i ps (chk ([a, len, i] ++ ps)) ∧ t.rxSource = rest) ∧
  (∀ (s t : State) (b : Byte) (rest : List Byte), s.eng = .decode → nextTurn s = .rxDeliver → s.rxSource = b :: rest →
    b ≠ 0x55 → step s = .next t → t.dstate = .seekMarker1 ∨ t.dstate = .seekMarker2 → t.dstate = .seekMarker1)

/-- R81: a frame with one bit of its checksum byte flipped is dropped, and the next valid frame is returned instead. -/
def Obligations.FlippedChecksumBitDropsTheFrame : Prop :=
  ∀ (s : State) (k : Nat) (a len i a' len' i' : Byte) (ps ps' rest : List Byte) (turns : List Turn),
    k < 8 → WellSized len ps → WellSized len' ps' → s.eng = .decode → s.dstate = .seekMarker1 →
    s.rxSource =
      [0x55, 0x55, a, len, i] ++ ps ++ [chk ([a, len, i] ++ ps) ^^^ BitVec.twoPow 8 k] ++ wireFrame a' len' i' ps' ++ rest →
    s.schedule = List.replicate (ps.length + 6 + (ps'.length + 6)) .rxDeliver ++ turns →
    (∃ u, core.run (ps.length + 6) s = .next u ∧ u.eng = .decode ∧ u.dstate = .seekMarker1 ∧ u.res = s.res ∧
      u.resValid = s.resValid) ∧
    ∃ t, core.run (ps.length + 6 + (ps'.length + 6)) s = .next t ∧ t.eng = .idle ∧ t.resValid = true ∧
      t.res = frameReport .frame a' len' i' ps' (chk ([a', len', i'] ++ ps')) ∧ t.rxSource = rest

/-! ### 42_opcode_values.md -/

/-- R82 to R89: the words of instruction bytes 1 to 14 decode to their rows, and each is legal with any count of 0 to 4 and any
address of 0 to 254. -/
def Obligations.MoveAndIdCommands : Prop :=
  (∀ w : CmdWord, cmdOp w = 0 →
    (cmdInstr w = 1 → decodeWord w = .move (cmdOperands w)) ∧
    (cmdInstr w = 2 → decodeWord w = .moveRead (cmdOperands w)) ∧
    (cmdInstr w = 7 → decodeWord w = .moveWaitWrite (cmdOperands w)) ∧
    (cmdInstr w = 8 → decodeWord w = .moveWaitRead (cmdOperands w)) ∧
    (cmdInstr w = 11 → decodeWord w = .moveStart (cmdOperands w)) ∧
    (cmdInstr w = 12 → decodeWord w = .moveStop (cmdOperands w)) ∧
    (cmdInstr w = 13 → decodeWord w = .idWrite (cmdOperands w)) ∧
    (cmdInstr w = 14 → decodeWord w = .idRead (cmdOperands w))) ∧
  ∀ (o : EncOperands) (s : State), Accepting s → LegalOperands o →
    exec (.move o) s = .next (frameOnOffer 1 o s) ∧
    exec (.moveRead o) s = .next (frameOnOffer 2 o s) ∧
    exec (.moveWaitWrite o) s = .next (frameOnOffer 7 o s) ∧
    exec (.moveWaitRead o) s = .next (frameOnOffer 8 o s) ∧
    exec (.moveStart o) s = .next (frameOnOffer 11 o s) ∧
    exec (.moveStop o) s = .next (frameOnOffer 12 o s) ∧
    exec (.idWrite o) s = .next (frameOnOffer 13 o s) ∧
    exec (.idRead o) s = .next (frameOnOffer 14 o s)

/-- R90 to R98: the words of instruction bytes 17 to 25 decode to their rows, and each is legal with any count of 0 to 4 and
any address of 0 to 254. -/
def Obligations.OffsetAndLimitCommands : Prop :=
  (∀ w : CmdWord, cmdOp w = 0 →
    (cmdInstr w = 17 → decodeWord w = .angleOffsetAdjust (cmdOperands w)) ∧
    (cmdInstr w = 18 → decodeWord w = .angleOffsetWrite (cmdOperands w)) ∧
    (cmdInstr w = 19 → decodeWord w = .angleOffsetRead (cmdOperands w)) ∧
    (cmdInstr w = 20 → decodeWord w = .angleLimitWrite (cmdOperands w)) ∧
    (cmdInstr w = 21 → decodeWord w = .angleLimitRead (cmdOperands w)) ∧
    (cmdInstr w = 22 → decodeWord w = .voltageLimitWrite (cmdOperands w)) ∧
    (cmdInstr w = 23 → decodeWord w = .voltageLimitRead (cmdOperands w)) ∧
    (cmdInstr w = 24 → decodeWord w = .temperatureLimitWrite (cmdOperands w)) ∧
    (cmdInstr w = 25 → decodeWord w = .temperatureLimitRead (cmdOperands w))) ∧
  ∀ (o : EncOperands) (s : State), Accepting s → LegalOperands o →
    exec (.angleOffsetAdjust o) s = .next (frameOnOffer 17 o s) ∧
    exec (.angleOffsetWrite o) s = .next (frameOnOffer 18 o s) ∧
    exec (.angleOffsetRead o) s = .next (frameOnOffer 19 o s) ∧
    exec (.angleLimitWrite o) s = .next (frameOnOffer 20 o s) ∧
    exec (.angleLimitRead o) s = .next (frameOnOffer 21 o s) ∧
    exec (.voltageLimitWrite o) s = .next (frameOnOffer 22 o s) ∧
    exec (.voltageLimitRead o) s = .next (frameOnOffer 23 o s) ∧
    exec (.temperatureLimitWrite o) s = .next (frameOnOffer 24 o s) ∧
    exec (.temperatureLimitRead o) s = .next (frameOnOffer 25 o s)

/-- R99 to R109: the words of instruction bytes 26 to 36 decode to their rows, and each is legal with any count of 0 to 4 and
any address of 0 to 254. -/
def Obligations.ReadingModeLoadAndLedCommands : Prop :=
  (∀ w : CmdWord, cmdOp w = 0 →
    (cmdInstr w = 26 → decodeWord w = .temperatureRead (cmdOperands w)) ∧
    (cmdInstr w = 27 → decodeWord w = .voltageRead (cmdOperands w)) ∧
    (cmdInstr w = 28 → decodeWord w = .positionRead (cmdOperands w)) ∧
    (cmdInstr w = 29 → decodeWord w = .modeWrite (cmdOperands w)) ∧
    (cmdInstr w = 30 → decodeWord w = .modeRead (cmdOperands w)) ∧
    (cmdInstr w = 31 → decodeWord w = .loadWrite (cmdOperands w)) ∧
    (cmdInstr w = 32 → decodeWord w = .loadRead (cmdOperands w)) ∧
    (cmdInstr w = 33 → decodeWord w = .ledWrite (cmdOperands w)) ∧
    (cmdInstr w = 34 → decodeWord w = .ledRead (cmdOperands w)) ∧
    (cmdInstr w = 35 → decodeWord w = .ledErrorWrite (cmdOperands w)) ∧
    (cmdInstr w = 36 → decodeWord w = .ledErrorRead (cmdOperands w))) ∧
  ∀ (o : EncOperands) (s : State), Accepting s → LegalOperands o →
    exec (.temperatureRead o) s = .next (frameOnOffer 26 o s) ∧
    exec (.voltageRead o) s = .next (frameOnOffer 27 o s) ∧
    exec (.positionRead o) s = .next (frameOnOffer 28 o s) ∧
    exec (.modeWrite o) s = .next (frameOnOffer 29 o s) ∧
    exec (.modeRead o) s = .next (frameOnOffer 30 o s) ∧
    exec (.loadWrite o) s = .next (frameOnOffer 31 o s) ∧
    exec (.loadRead o) s = .next (frameOnOffer 32 o s) ∧
    exec (.ledWrite o) s = .next (frameOnOffer 33 o s) ∧
    exec (.ledRead o) s = .next (frameOnOffer 34 o s) ∧
    exec (.ledErrorWrite o) s = .next (frameOnOffer 35 o s) ∧
    exec (.ledErrorRead o) s = .next (frameOnOffer 36 o s)

/-- R110: an ENCODE word with any other instruction byte is the generic row; it completes in the accepting step with
BAD_INSTR among its reasons and sends nothing. -/
def Obligations.OtherInstructionBytesAreIllegal : Prop :=
  ∀ (w : CmdWord) (s : State), cmdOp w = 0 → isValidOpcode (cmdInstr w) = false → Accepting s →
    decodeWord w = .encode (cmdOperands w) (cmdInstr w) ∧
    ∃ t, exec (decodeWord w) s = .next t ∧ t.eng = .idle ∧ t.resValid = true ∧ t.res.kind = .encodingError ∧
      t.res.reason.getLsbD 1 = true ∧ t.txSink = s.txSink ∧ t.txBuf = s.txBuf

/-! ### 60_exceptions.md, 70_reset_and_hazards.md: the whole machine -/

/-- The frame of every instruction: acceptance sends and consumes no byte; an ENCODE leaves the decoder's state and the capture
registers, a DECODE the transmit registers and `RES`; an ENCODE that starts leaves `RES`, one that fails leaves `TXBUF`,
`TX_N` and `TX_I` (R57, R58, R64). -/
def Obligations.AcceptanceFrame : Prop :=
  ∀ (i : Instr) (s t : State), exec i s = .next t →
    t.rxSource = s.rxSource ∧ t.txSink = s.txSink ∧ t.schedule = s.schedule ∧ t.turnNo = s.turnNo ∧
    (i ≠ .decode → t.dstate = s.dstate ∧ t.rxAddr = s.rxAddr ∧ t.rxLen = s.rxLen ∧ t.rxInstr = s.rxInstr ∧
      t.rxHi = s.rxHi ∧ t.rxNp = s.rxNp ∧ t.rxPi = s.rxPi ∧ t.rxP = s.rxP) ∧
    (i = .decode → t.txBuf = s.txBuf ∧ t.txN = s.txN ∧ t.txI = s.txI ∧ t.res = s.res) ∧
    (t.eng = .encode → t.res = s.res) ∧
    (t.eng = .idle → t.txBuf = s.txBuf ∧ t.txN = s.txN ∧ t.txI = s.txI)

/-- The frame of the byte events: sending leaves the decoder, receiving and timing out leave the transmitter, and neither
touches what the host will present (R29, R33, R35). -/
def Obligations.ByteEventFrame : Prop :=
  ∀ s t : State, step s = .next t →
    (nextTurn s = .txAccept →
      t.dstate = s.dstate ∧ t.rxAddr = s.rxAddr ∧ t.rxLen = s.rxLen ∧ t.rxInstr = s.rxInstr ∧ t.rxHi = s.rxHi ∧
      t.rxNp = s.rxNp ∧ t.rxPi = s.rxPi ∧ t.rxP = s.rxP ∧ t.txBuf = s.txBuf ∧ t.txN = s.txN ∧ t.hostQueue = s.hostQueue) ∧
    (nextTurn s = .rxDeliver ∨ nextTurn s = .timeout →
      t.txBuf = s.txBuf ∧ t.txN = s.txN ∧ t.txI = s.txI ∧ t.hostQueue = s.hostQueue)

/-- What the turns do in which no event of R6 occurs: nothing (the model's choice, log entry 2), except that a byte from the bus
waits at the end of the RX source (R31) and that the host lines up an item. An event that no rule enables cannot occur (R12). -/
def Obligations.TurnsWithoutAnEventPass : Prop :=
  ∀ s : State, s.eng ≠ .reserved → s.dstate.isReserved = false →
    (nextTurn s = .host → (s.eng ≠ .idle ∨ presentedCmd s = none) → step s = .next (popTurn s)) ∧
    (nextTurn s = .txAccept → s.eng ≠ .encode → step s = .next (popTurn s)) ∧
    (nextTurn s = .rxDeliver → (s.eng ≠ .decode ∨ s.rxSource = []) → step s = .next (popTurn s)) ∧
    (nextTurn s = .timeout → s.eng ≠ .decode → step s = .next (popTurn s)) ∧
    (nextTurn s = .wait → step s = .next (popTurn s)) ∧
    (∀ b, nextTurn s = .arrive b → step s = .next { popTurn s with rxSource := s.rxSource ++ [b] }) ∧
    (∀ i, nextTurn s = .present i → step s = .next { popTurn s with hostQueue := s.hostQueue ++ [i] })

/-- R114: a byte that does not end the DECODE, a discarded frame's last byte among them, changes nothing the host can see. -/
def Obligations.DiscardIsInvisible : Prop :=
  ∀ s t : State, step s = .next t → nextTurn s = .rxDeliver → t.eng = .decode →
    readRes t = readRes s ∧ status t = status s

/-- R64, R63, R139: a DECODE ends only by a frame, a timeout or reset, an ENCODE only by its last byte or reset. -/
def Obligations.OperationsEndOnlyByTheirOwnEnd : Prop :=
  ∀ s t : State, step s = .next t →
    (s.eng = .decode → t.eng = .decode ∨ nextTurn s = .reset ∨
      (t.eng = .idle ∧ t.resValid = true ∧
        ((nextTurn s = .rxDeliver ∧ t.res.kind = .frame) ∨ (nextTurn s = .timeout ∧ t.res.kind = .timeout)))) ∧
    (s.eng = .encode → t.eng = .encode ∨ nextTurn s = .reset ∨
      (t.eng = .idle ∧ t.resValid = true ∧ nextTurn s = .txAccept ∧ t.res.kind = .txDone ∧
        s.txN.toNat ≤ s.txI.toNat + 1))

/-- R116, R119: after an error the engine is idle, and the next command that the host presents is accepted in the next
host's turn. -/
def Obligations.EngineGoesOnAfterAnError : Prop :=
  ∀ s t : State, Inv s → step s = .next t → t.resValid = true →
    (t.res.kind = .encodingError ∨ t.res.kind = .timeout) →
    t.eng = .idle ∧ ∀ w, nextTurn t = .host → presentedCmd t = some w →
      ∃ u, step t = .next u ∧ step t = exec (decodeWord w) (popTurn t) ∧ u.hostQueue = hostRest t

/-- R127, R130: reset in any state whose `ENG` and `DSTATE` are legal (a state with another value faults instead, the model's
reading of R16 and R17 against R117 and R127, log entry 3): every element of R15 takes its reset value, the environment's
streams keep what they have, and the engine accepts a command in the next step. -/
def Obligations.ResetEvent : Prop :=
  (∀ s : State, s.eng ≠ .reserved → s.dstate.isReserved = false → nextTurn s = .reset →
    ∃ t, step s = .next t ∧ SameBlock State.reset t ∧ t.rxSource = s.rxSource ∧ t.txSink = s.txSink ∧
      status t = 1 ∧ readRes t = 0 ∧
      ∀ w, nextTurn t = .host → presentedCmd t = some w → step t = exec (decodeWord w) (popTurn t)) ∧
  resetBlock State.reset = State.reset

/-- The invariant holds at reset. -/
def Obligations.ResetMeetsTheInvariant : Prop := Inv State.reset

/-- Every step keeps the invariant, from every state that meets it and whatever the environment does. -/
def Obligations.StepKeepsTheInvariant : Prop := ∀ s t : State, Inv s → step s = .next t → Inv t

/-- R116: no outcome is fatal: a state that meets the invariant always has a next state, so no run from it ever stops. -/
def Obligations.NoRunStops : Prop := ∀ s : State, Inv s → Safe s
end

