-- ==== Sys2Proof/Laws/Bits.lean ====
section
/-! SUPPORT. Reading a field back from a word built with `place`: the lemmas behind every packing of the model. -/

namespace Sys2Proof

theorem extract_or {w : Nat} (x y : BitVec w) (lo len : Nat) :
    (x ||| y).extractLsb' lo len = x.extractLsb' lo len ||| y.extractLsb' lo len := by
  apply BitVec.eq_of_getLsbD_eq
  intro i hi
  simp [hi]

theorem extract_place_same {n w : Nat} (v : BitVec n) (lo : Nat) (h : lo + n ≤ w) :
    (place w v lo).extractLsb' lo n = v := by
  apply BitVec.eq_of_getLsbD_eq
  intro i hi
  simp [place, hi, show lo + i < w by omega]

theorem extract_place_disjoint {n w : Nat} (v : BitVec n) (lo lo' len : Nat) (h : lo' + len ≤ lo ∨ lo + n ≤ lo') :
    (place w v lo).extractLsb' lo' len = 0 := by
  apply BitVec.eq_of_getLsbD_eq
  intro i hi
  rcases h with h | h
  · simp only [place, BitVec.getLsbD_extractLsb', BitVec.getLsbD_shiftLeft]
    simp [show lo' + i < lo by omega]
  · simp only [place, BitVec.getLsbD_extractLsb', hi, decide_true, Bool.true_and, BitVec.getLsbD_shiftLeft]
    simp [BitVec.getLsbD_of_ge v (lo' + i - lo) (by omega)]

/-- The fields of an ENCODE word are what was put in (R44). -/
theorem packEncode_fields (v : Byte) (o : EncOperands) :
    cmdOp (packEncode v o) = 0 ∧ cmdInstr (packEncode v o) = v ∧ cmdOperands (packEncode v o) = o := by
  refine ⟨?_, ?_, ?_⟩
  · simp [cmdOp, packEncode, extract_or, extract_place_disjoint]
  · simp [cmdInstr, packEncode, extract_or, extract_place_disjoint, extract_place_same]
  · simp [cmdOperands, cmdNParam, cmdAddr, cmdP0, cmdP1, cmdP2, cmdP3, packEncode, extract_or, extract_place_disjoint,
      extract_place_same]

/-- The bytes of a word make the word again (R10). -/
theorem wordOfBytes_bytesOfWord (w : CmdWord) :
    wordOfBytes (w.extractLsb' 0 8) (cmdAddr w) (cmdInstr w) (cmdP0 w) (cmdP1 w) (cmdP2 w) (cmdP3 w) = w := by
  apply BitVec.eq_of_getLsbD_eq
  intro i hi
  simp only [wordOfBytes, place, cmdAddr, cmdInstr, cmdP0, cmdP1, cmdP2, cmdP3, BitVec.getLsbD_or, BitVec.getLsbD_shiftLeft,
    BitVec.getLsbD_setWidth, BitVec.getLsbD_extractLsb']
  interval_cases i <;> simp

end Sys2Proof
end

