-- ==== Sys2Proof/Laws/Bytes.lean ====
section
/-! SUPPORT. Byte lists: sums, parameters, the length of a frame, and the transmit buffer. -/

namespace Sys2Proof.Machine

@[simp] theorem byteSum_nil : byteSum [] = 0 := rfl

@[simp] theorem byteSum_cons (b : Byte) (bs : List Byte) : byteSum (b :: bs) = b.toNat + byteSum bs := rfl

@[simp] theorem byteSum_append (xs ys : List Byte) : byteSum (xs ++ ys) = byteSum xs + byteSum ys := by
  induction xs with
  | nil => simp
  | cons b bs ih => simp [ih, Nat.add_assoc]

theorem byteSum_le (bs : List Byte) : byteSum bs ≤ 255 * bs.length := by
  induction bs with
  | nil => simp
  | cons b bs ih =>
    have := b.isLt
    simp
    omega

theorem params_length (o : EncOperands) (h : o.nparam.toNat ≤ 4) : (params o).length = o.nparam.toNat := by
  simp [params]
  omega

theorem params_length_le (o : EncOperands) : (params o).length ≤ 4 := by
  simp [params]

@[simp] theorem frameBody_length (a i : Byte) (ps : List Byte) : (frameBody a i ps).length = ps.length + 3 := by
  simp [frameBody]

@[simp] theorem frame_length (a i : Byte) (ps : List Byte) : (frame a i ps).length = ps.length + 6 := by
  simp [frame]

theorem capturedBody_congr (s t : State) (ha : t.rxAddr = s.rxAddr) (hl : t.rxLen = s.rxLen)
    (hi : t.rxInstr = s.rxInstr) (hn : t.rxNp = s.rxNp) (hp : t.rxP = s.rxP) : capturedBody t = capturedBody s := by
  simp [capturedBody, ha, hl, hi, hn, hp]

end Sys2Proof.Machine
end

