-- ==== Sys2Proof/Laws/State.lean ====
section
/-! SUPPORT. One lemma per field of the state per shared update, so that no proof unfolds a record update. -/

namespace Sys2Proof.Machine

@[simp] theorem takeCmd_eng (s : State) : (takeCmd s).eng = s.eng := rfl
@[simp] theorem takeCmd_dstate (s : State) : (takeCmd s).dstate = s.dstate := rfl
@[simp] theorem takeCmd_txBuf (s : State) : (takeCmd s).txBuf = s.txBuf := rfl
@[simp] theorem takeCmd_txN (s : State) : (takeCmd s).txN = s.txN := rfl
@[simp] theorem takeCmd_txI (s : State) : (takeCmd s).txI = s.txI := rfl
@[simp] theorem takeCmd_rxAddr (s : State) : (takeCmd s).rxAddr = s.rxAddr := rfl
@[simp] theorem takeCmd_rxLen (s : State) : (takeCmd s).rxLen = s.rxLen := rfl
@[simp] theorem takeCmd_rxInstr (s : State) : (takeCmd s).rxInstr = s.rxInstr := rfl
@[simp] theorem takeCmd_rxHi (s : State) : (takeCmd s).rxHi = s.rxHi := rfl
@[simp] theorem takeCmd_rxNp (s : State) : (takeCmd s).rxNp = s.rxNp := rfl
@[simp] theorem takeCmd_rxPi (s : State) : (takeCmd s).rxPi = s.rxPi := rfl
@[simp] theorem takeCmd_rxP (s : State) : (takeCmd s).rxP = s.rxP := rfl
@[simp] theorem takeCmd_resValid (s : State) : (takeCmd s).resValid = false := rfl
@[simp] theorem takeCmd_res (s : State) : (takeCmd s).res = s.res := rfl
@[simp] theorem takeCmd_hostQueue (s : State) : (takeCmd s).hostQueue = hostRest s := rfl
@[simp] theorem takeCmd_sawTxDone (s : State) : (takeCmd s).sawTxDone = false := rfl
@[simp] theorem takeCmd_rxSource (s : State) : (takeCmd s).rxSource = s.rxSource := rfl
@[simp] theorem takeCmd_txSink (s : State) : (takeCmd s).txSink = s.txSink := rfl
@[simp] theorem takeCmd_schedule (s : State) : (takeCmd s).schedule = s.schedule := rfl
@[simp] theorem takeCmd_turnNo (s : State) : (takeCmd s).turnNo = s.turnNo := rfl

@[simp] theorem complete_eng (r : Result) (s : State) : (complete r s).eng = .idle := rfl
@[simp] theorem complete_dstate (r : Result) (s : State) : (complete r s).dstate = s.dstate := rfl
@[simp] theorem complete_txBuf (r : Result) (s : State) : (complete r s).txBuf = s.txBuf := rfl
@[simp] theorem complete_txN (r : Result) (s : State) : (complete r s).txN = s.txN := rfl
@[simp] theorem complete_txI (r : Result) (s : State) : (complete r s).txI = s.txI := rfl
@[simp] theorem complete_rxAddr (r : Result) (s : State) : (complete r s).rxAddr = s.rxAddr := rfl
@[simp] theorem complete_rxLen (r : Result) (s : State) : (complete r s).rxLen = s.rxLen := rfl
@[simp] theorem complete_rxInstr (r : Result) (s : State) : (complete r s).rxInstr = s.rxInstr := rfl
@[simp] theorem complete_rxHi (r : Result) (s : State) : (complete r s).rxHi = s.rxHi := rfl
@[simp] theorem complete_rxNp (r : Result) (s : State) : (complete r s).rxNp = s.rxNp := rfl
@[simp] theorem complete_rxPi (r : Result) (s : State) : (complete r s).rxPi = s.rxPi := rfl
@[simp] theorem complete_rxP (r : Result) (s : State) : (complete r s).rxP = s.rxP := rfl
@[simp] theorem complete_resValid (r : Result) (s : State) : (complete r s).resValid = true := rfl
@[simp] theorem complete_res (r : Result) (s : State) : (complete r s).res = r := rfl
@[simp] theorem complete_hostQueue (r : Result) (s : State) : (complete r s).hostQueue = s.hostQueue := rfl
@[simp] theorem complete_sawTxDone (r : Result) (s : State) : (complete r s).sawTxDone = (r.kind == .txDone) := rfl
@[simp] theorem complete_rxSource (r : Result) (s : State) : (complete r s).rxSource = s.rxSource := rfl
@[simp] theorem complete_txSink (r : Result) (s : State) : (complete r s).txSink = s.txSink := rfl
@[simp] theorem complete_schedule (r : Result) (s : State) : (complete r s).schedule = s.schedule := rfl
@[simp] theorem complete_turnNo (r : Result) (s : State) : (complete r s).turnNo = s.turnNo := rfl

@[simp] theorem raise_eng (e : CodecError) (s : State) : (raise e s).eng = .idle := rfl
@[simp] theorem raise_dstate (e : CodecError) (s : State) : (raise e s).dstate = s.dstate := rfl
@[simp] theorem raise_txBuf (e : CodecError) (s : State) : (raise e s).txBuf = s.txBuf := rfl
@[simp] theorem raise_txN (e : CodecError) (s : State) : (raise e s).txN = s.txN := rfl
@[simp] theorem raise_txI (e : CodecError) (s : State) : (raise e s).txI = s.txI := rfl
@[simp] theorem raise_rxAddr (e : CodecError) (s : State) : (raise e s).rxAddr = s.rxAddr := rfl
@[simp] theorem raise_rxLen (e : CodecError) (s : State) : (raise e s).rxLen = s.rxLen := rfl
@[simp] theorem raise_rxInstr (e : CodecError) (s : State) : (raise e s).rxInstr = s.rxInstr := rfl
@[simp] theorem raise_rxHi (e : CodecError) (s : State) : (raise e s).rxHi = s.rxHi := rfl
@[simp] theorem raise_rxNp (e : CodecError) (s : State) : (raise e s).rxNp = s.rxNp := rfl
@[simp] theorem raise_rxPi (e : CodecError) (s : State) : (raise e s).rxPi = s.rxPi := rfl
@[simp] theorem raise_rxP (e : CodecError) (s : State) : (raise e s).rxP = s.rxP := rfl
@[simp] theorem raise_resValid (e : CodecError) (s : State) : (raise e s).resValid = true := rfl
@[simp] theorem raise_res (e : CodecError) (s : State) : (raise e s).res = e.result := rfl
@[simp] theorem raise_hostQueue (e : CodecError) (s : State) : (raise e s).hostQueue = s.hostQueue := rfl
@[simp] theorem raise_sawTxDone (e : CodecError) (s : State) : (raise e s).sawTxDone = false := by cases e <;> rfl
@[simp] theorem raise_rxSource (e : CodecError) (s : State) : (raise e s).rxSource = s.rxSource := rfl
@[simp] theorem raise_txSink (e : CodecError) (s : State) : (raise e s).txSink = s.txSink := rfl
@[simp] theorem raise_schedule (e : CodecError) (s : State) : (raise e s).schedule = s.schedule := rfl
@[simp] theorem raise_turnNo (e : CodecError) (s : State) : (raise e s).turnNo = s.turnNo := rfl

@[simp] theorem discardFrame_eng (c : InvalidFrame) (s : State) : (discardFrame c s).eng = s.eng := rfl
@[simp] theorem discardFrame_dstate (c : InvalidFrame) (s : State) : (discardFrame c s).dstate = .seekMarker1 := rfl
@[simp] theorem discardFrame_txBuf (c : InvalidFrame) (s : State) : (discardFrame c s).txBuf = s.txBuf := rfl
@[simp] theorem discardFrame_txN (c : InvalidFrame) (s : State) : (discardFrame c s).txN = s.txN := rfl
@[simp] theorem discardFrame_txI (c : InvalidFrame) (s : State) : (discardFrame c s).txI = s.txI := rfl
@[simp] theorem discardFrame_rxAddr (c : InvalidFrame) (s : State) : (discardFrame c s).rxAddr = s.rxAddr := rfl
@[simp] theorem discardFrame_rxLen (c : InvalidFrame) (s : State) : (discardFrame c s).rxLen = s.rxLen := rfl
@[simp] theorem discardFrame_rxInstr (c : InvalidFrame) (s : State) : (discardFrame c s).rxInstr = s.rxInstr := rfl
@[simp] theorem discardFrame_rxHi (c : InvalidFrame) (s : State) : (discardFrame c s).rxHi = s.rxHi := rfl
@[simp] theorem discardFrame_rxNp (c : InvalidFrame) (s : State) : (discardFrame c s).rxNp = s.rxNp := rfl
@[simp] theorem discardFrame_rxPi (c : InvalidFrame) (s : State) : (discardFrame c s).rxPi = s.rxPi := rfl
@[simp] theorem discardFrame_rxP (c : InvalidFrame) (s : State) : (discardFrame c s).rxP = s.rxP := rfl
@[simp] theorem discardFrame_resValid (c : InvalidFrame) (s : State) : (discardFrame c s).resValid = s.resValid := rfl
@[simp] theorem discardFrame_res (c : InvalidFrame) (s : State) : (discardFrame c s).res = s.res := rfl
@[simp] theorem discardFrame_hostQueue (c : InvalidFrame) (s : State) : (discardFrame c s).hostQueue = s.hostQueue := rfl
@[simp] theorem discardFrame_sawTxDone (c : InvalidFrame) (s : State) : (discardFrame c s).sawTxDone = s.sawTxDone := rfl
@[simp] theorem discardFrame_rxSource (c : InvalidFrame) (s : State) : (discardFrame c s).rxSource = s.rxSource := rfl
@[simp] theorem discardFrame_txSink (c : InvalidFrame) (s : State) : (discardFrame c s).txSink = s.txSink := rfl
@[simp] theorem discardFrame_schedule (c : InvalidFrame) (s : State) : (discardFrame c s).schedule = s.schedule := rfl
@[simp] theorem discardFrame_turnNo (c : InvalidFrame) (s : State) : (discardFrame c s).turnNo = s.turnNo := rfl

@[simp] theorem clearCapture_eng (s : State) : (clearCapture s).eng = s.eng := rfl
@[simp] theorem clearCapture_dstate (s : State) : (clearCapture s).dstate = s.dstate := rfl
@[simp] theorem clearCapture_txBuf (s : State) : (clearCapture s).txBuf = s.txBuf := rfl
@[simp] theorem clearCapture_txN (s : State) : (clearCapture s).txN = s.txN := rfl
@[simp] theorem clearCapture_txI (s : State) : (clearCapture s).txI = s.txI := rfl
@[simp] theorem clearCapture_rxAddr (s : State) : (clearCapture s).rxAddr = 0 := rfl
@[simp] theorem clearCapture_rxLen (s : State) : (clearCapture s).rxLen = 0 := rfl
@[simp] theorem clearCapture_rxInstr (s : State) : (clearCapture s).rxInstr = 0 := rfl
@[simp] theorem clearCapture_rxHi (s : State) : (clearCapture s).rxHi = 0 := rfl
@[simp] theorem clearCapture_rxNp (s : State) : (clearCapture s).rxNp = 0 := rfl
@[simp] theorem clearCapture_rxPi (s : State) : (clearCapture s).rxPi = 0 := rfl
@[simp] theorem clearCapture_rxP (s : State) : (clearCapture s).rxP = #v[0, 0, 0, 0] := rfl
@[simp] theorem clearCapture_resValid (s : State) : (clearCapture s).resValid = s.resValid := rfl
@[simp] theorem clearCapture_res (s : State) : (clearCapture s).res = s.res := rfl
@[simp] theorem clearCapture_hostQueue (s : State) : (clearCapture s).hostQueue = s.hostQueue := rfl
@[simp] theorem clearCapture_sawTxDone (s : State) : (clearCapture s).sawTxDone = s.sawTxDone := rfl
@[simp] theorem clearCapture_rxSource (s : State) : (clearCapture s).rxSource = s.rxSource := rfl
@[simp] theorem clearCapture_txSink (s : State) : (clearCapture s).txSink = s.txSink := rfl
@[simp] theorem clearCapture_schedule (s : State) : (clearCapture s).schedule = s.schedule := rfl
@[simp] theorem clearCapture_turnNo (s : State) : (clearCapture s).turnNo = s.turnNo := rfl

@[simp] theorem consume_eng (s : State) : (consume s).eng = s.eng := rfl
@[simp] theorem consume_dstate (s : State) : (consume s).dstate = s.dstate := rfl
@[simp] theorem consume_txBuf (s : State) : (consume s).txBuf = s.txBuf := rfl
@[simp] theorem consume_txN (s : State) : (consume s).txN = s.txN := rfl
@[simp] theorem consume_txI (s : State) : (consume s).txI = s.txI := rfl
@[simp] theorem consume_rxAddr (s : State) : (consume s).rxAddr = s.rxAddr := rfl
@[simp] theorem consume_rxLen (s : State) : (consume s).rxLen = s.rxLen := rfl
@[simp] theorem consume_rxInstr (s : State) : (consume s).rxInstr = s.rxInstr := rfl
@[simp] theorem consume_rxHi (s : State) : (consume s).rxHi = s.rxHi := rfl
@[simp] theorem consume_rxNp (s : State) : (consume s).rxNp = s.rxNp := rfl
@[simp] theorem consume_rxPi (s : State) : (consume s).rxPi = s.rxPi := rfl
@[simp] theorem consume_rxP (s : State) : (consume s).rxP = s.rxP := rfl
@[simp] theorem consume_resValid (s : State) : (consume s).resValid = s.resValid := rfl
@[simp] theorem consume_res (s : State) : (consume s).res = s.res := rfl
@[simp] theorem consume_hostQueue (s : State) : (consume s).hostQueue = s.hostQueue := rfl
@[simp] theorem consume_sawTxDone (s : State) : (consume s).sawTxDone = s.sawTxDone := rfl
@[simp] theorem consume_rxSource (s : State) : (consume s).rxSource = s.rxSource.tail := rfl
@[simp] theorem consume_txSink (s : State) : (consume s).txSink = s.txSink := rfl
@[simp] theorem consume_schedule (s : State) : (consume s).schedule = s.schedule := rfl
@[simp] theorem consume_turnNo (s : State) : (consume s).turnNo = s.turnNo := rfl

@[simp] theorem timeoutEvent_eng (s : State) : (timeoutEvent s).eng = .idle := rfl
@[simp] theorem timeoutEvent_dstate (s : State) : (timeoutEvent s).dstate = .seekMarker1 := rfl
@[simp] theorem timeoutEvent_txBuf (s : State) : (timeoutEvent s).txBuf = s.txBuf := rfl
@[simp] theorem timeoutEvent_txN (s : State) : (timeoutEvent s).txN = s.txN := rfl
@[simp] theorem timeoutEvent_txI (s : State) : (timeoutEvent s).txI = s.txI := rfl
@[simp] theorem timeoutEvent_rxAddr (s : State) : (timeoutEvent s).rxAddr = s.rxAddr := rfl
@[simp] theorem timeoutEvent_rxLen (s : State) : (timeoutEvent s).rxLen = s.rxLen := rfl
@[simp] theorem timeoutEvent_rxInstr (s : State) : (timeoutEvent s).rxInstr = s.rxInstr := rfl
@[simp] theorem timeoutEvent_rxHi (s : State) : (timeoutEvent s).rxHi = s.rxHi := rfl
@[simp] theorem timeoutEvent_rxNp (s : State) : (timeoutEvent s).rxNp = s.rxNp := rfl
@[simp] theorem timeoutEvent_rxPi (s : State) : (timeoutEvent s).rxPi = s.rxPi := rfl
@[simp] theorem timeoutEvent_rxP (s : State) : (timeoutEvent s).rxP = s.rxP := rfl
@[simp] theorem timeoutEvent_resValid (s : State) : (timeoutEvent s).resValid = true := rfl
@[simp] theorem timeoutEvent_res (s : State) : (timeoutEvent s).res = { Result.zero with kind := .timeout } := rfl
@[simp] theorem timeoutEvent_hostQueue (s : State) : (timeoutEvent s).hostQueue = s.hostQueue := rfl
@[simp] theorem timeoutEvent_sawTxDone (s : State) : (timeoutEvent s).sawTxDone = false := rfl
@[simp] theorem timeoutEvent_rxSource (s : State) : (timeoutEvent s).rxSource = s.rxSource := rfl
@[simp] theorem timeoutEvent_txSink (s : State) : (timeoutEvent s).txSink = s.txSink := rfl
@[simp] theorem timeoutEvent_schedule (s : State) : (timeoutEvent s).schedule = s.schedule := rfl
@[simp] theorem timeoutEvent_turnNo (s : State) : (timeoutEvent s).turnNo = s.turnNo := rfl

@[simp] theorem startDecode_eng (s : State) : (startDecode s).eng = .decode := rfl
@[simp] theorem startDecode_dstate (s : State) : (startDecode s).dstate = .seekMarker1 := rfl
@[simp] theorem startDecode_txBuf (s : State) : (startDecode s).txBuf = s.txBuf := rfl
@[simp] theorem startDecode_txN (s : State) : (startDecode s).txN = s.txN := rfl
@[simp] theorem startDecode_txI (s : State) : (startDecode s).txI = s.txI := rfl
@[simp] theorem startDecode_rxAddr (s : State) : (startDecode s).rxAddr = 0 := rfl
@[simp] theorem startDecode_rxLen (s : State) : (startDecode s).rxLen = 0 := rfl
@[simp] theorem startDecode_rxInstr (s : State) : (startDecode s).rxInstr = 0 := rfl
@[simp] theorem startDecode_rxHi (s : State) : (startDecode s).rxHi = 0 := rfl
@[simp] theorem startDecode_rxNp (s : State) : (startDecode s).rxNp = 0 := rfl
@[simp] theorem startDecode_rxPi (s : State) : (startDecode s).rxPi = 0 := rfl
@[simp] theorem startDecode_rxP (s : State) : (startDecode s).rxP = #v[0, 0, 0, 0] := rfl
@[simp] theorem startDecode_resValid (s : State) : (startDecode s).resValid = s.resValid := rfl
@[simp] theorem startDecode_res (s : State) : (startDecode s).res = s.res := rfl
@[simp] theorem startDecode_hostQueue (s : State) : (startDecode s).hostQueue = s.hostQueue := rfl
@[simp] theorem startDecode_sawTxDone (s : State) : (startDecode s).sawTxDone = s.sawTxDone := rfl
@[simp] theorem startDecode_rxSource (s : State) : (startDecode s).rxSource = s.rxSource := rfl
@[simp] theorem startDecode_txSink (s : State) : (startDecode s).txSink = s.txSink := rfl
@[simp] theorem startDecode_schedule (s : State) : (startDecode s).schedule = s.schedule := rfl
@[simp] theorem startDecode_turnNo (s : State) : (startDecode s).turnNo = s.turnNo := rfl

@[simp] theorem resetBlock_eng (s : State) : (resetBlock s).eng = State.reset.eng := rfl
@[simp] theorem resetBlock_dstate (s : State) : (resetBlock s).dstate = State.reset.dstate := rfl
@[simp] theorem resetBlock_txBuf (s : State) : (resetBlock s).txBuf = State.reset.txBuf := rfl
@[simp] theorem resetBlock_txN (s : State) : (resetBlock s).txN = State.reset.txN := rfl
@[simp] theorem resetBlock_txI (s : State) : (resetBlock s).txI = State.reset.txI := rfl
@[simp] theorem resetBlock_rxAddr (s : State) : (resetBlock s).rxAddr = State.reset.rxAddr := rfl
@[simp] theorem resetBlock_rxLen (s : State) : (resetBlock s).rxLen = State.reset.rxLen := rfl
@[simp] theorem resetBlock_rxInstr (s : State) : (resetBlock s).rxInstr = State.reset.rxInstr := rfl
@[simp] theorem resetBlock_rxHi (s : State) : (resetBlock s).rxHi = State.reset.rxHi := rfl
@[simp] theorem resetBlock_rxNp (s : State) : (resetBlock s).rxNp = State.reset.rxNp := rfl
@[simp] theorem resetBlock_rxPi (s : State) : (resetBlock s).rxPi = State.reset.rxPi := rfl
@[simp] theorem resetBlock_rxP (s : State) : (resetBlock s).rxP = State.reset.rxP := rfl
@[simp] theorem resetBlock_resValid (s : State) : (resetBlock s).resValid = State.reset.resValid := rfl
@[simp] theorem resetBlock_res (s : State) : (resetBlock s).res = State.reset.res := rfl
@[simp] theorem resetBlock_hostQueue (s : State) : (resetBlock s).hostQueue = s.hostQueue := rfl
@[simp] theorem resetBlock_sawTxDone (s : State) : (resetBlock s).sawTxDone = s.sawTxDone := rfl
@[simp] theorem resetBlock_rxSource (s : State) : (resetBlock s).rxSource = s.rxSource := rfl
@[simp] theorem resetBlock_txSink (s : State) : (resetBlock s).txSink = s.txSink := rfl
@[simp] theorem resetBlock_schedule (s : State) : (resetBlock s).schedule = s.schedule := rfl
@[simp] theorem resetBlock_turnNo (s : State) : (resetBlock s).turnNo = s.turnNo := rfl

@[simp] theorem popTurn_eng (s : State) : (popTurn s).eng = s.eng := by unfold popTurn; split <;> rfl
@[simp] theorem popTurn_dstate (s : State) : (popTurn s).dstate = s.dstate := by unfold popTurn; split <;> rfl
@[simp] theorem popTurn_txBuf (s : State) : (popTurn s).txBuf = s.txBuf := by unfold popTurn; split <;> rfl
@[simp] theorem popTurn_txN (s : State) : (popTurn s).txN = s.txN := by unfold popTurn; split <;> rfl
@[simp] theorem popTurn_txI (s : State) : (popTurn s).txI = s.txI := by unfold popTurn; split <;> rfl
@[simp] theorem popTurn_rxAddr (s : State) : (popTurn s).rxAddr = s.rxAddr := by unfold popTurn; split <;> rfl
@[simp] theorem popTurn_rxLen (s : State) : (popTurn s).rxLen = s.rxLen := by unfold popTurn; split <;> rfl
@[simp] theorem popTurn_rxInstr (s : State) : (popTurn s).rxInstr = s.rxInstr := by unfold popTurn; split <;> rfl
@[simp] theorem popTurn_rxHi (s : State) : (popTurn s).rxHi = s.rxHi := by unfold popTurn; split <;> rfl
@[simp] theorem popTurn_rxNp (s : State) : (popTurn s).rxNp = s.rxNp := by unfold popTurn; split <;> rfl
@[simp] theorem popTurn_rxPi (s : State) : (popTurn s).rxPi = s.rxPi := by unfold popTurn; split <;> rfl
@[simp] theorem popTurn_rxP (s : State) : (popTurn s).rxP = s.rxP := by unfold popTurn; split <;> rfl
@[simp] theorem popTurn_resValid (s : State) : (popTurn s).resValid = s.resValid := by unfold popTurn; split <;> rfl
@[simp] theorem popTurn_res (s : State) : (popTurn s).res = s.res := by unfold popTurn; split <;> rfl
@[simp] theorem popTurn_hostQueue (s : State) : (popTurn s).hostQueue = s.hostQueue := by unfold popTurn; split <;> rfl
@[simp] theorem popTurn_sawTxDone (s : State) : (popTurn s).sawTxDone = s.sawTxDone := by unfold popTurn; split <;> rfl
@[simp] theorem popTurn_rxSource (s : State) : (popTurn s).rxSource = s.rxSource := by unfold popTurn; split <;> rfl
@[simp] theorem popTurn_txSink (s : State) : (popTurn s).txSink = s.txSink := by unfold popTurn; split <;> rfl

end Sys2Proof.Machine
end

