-- ==== Sys2Proof/Laws/Ops.lean ====
section
/-! SUPPORT. What each shared operation can do, said once: the guard, acceptance, exec of every instruction, and the events
of a frame being sent and of a frame being read. -/

namespace Sys2Proof.Machine

/-! ### The guard and acceptance -/

theorem guardLegal_of_legal {s : State} {k : Out} (he : s.eng ≠ .reserved) (hd : s.dstate.isReserved = false) :
    guardLegal s k = k := by
  simp [guardLegal, he, hd]

theorem guardLegal_next {s t : State} {k : Out} (h : guardLegal s k = .next t) :
    s.eng ≠ .reserved ∧ s.dstate.isReserved = false ∧ k = .next t := by
  unfold guardLegal at h
  split at h
  · cases h
  · split at h
    · cases h
    · exact ⟨‹_›, Bool.eq_false_of_not_eq_true ‹_›, h⟩

@[simp] theorem guardLegal_idem (s : State) (k : Out) : guardLegal s (guardLegal s k) = guardLegal s k := by
  unfold guardLegal
  split
  · rfl
  · split <;> rfl

theorem accept_idle {s : State} (start : State → State) (he : s.eng = .idle) (hd : s.dstate.isReserved = false) :
    accept start s = .next (start (takeCmd s)) := by
  simp [accept, guardLegal, he, hd]

theorem accept_busy {s : State} (start : State → State) (he : s.eng = .encode ∨ s.eng = .decode)
    (hd : s.dstate.isReserved = false) : accept start s = .next s := by
  rcases he with he | he <;> simp [accept, guardLegal, he, hd]

theorem accept_next {s t : State} {start : State → State} (h : accept start s = .next t) :
    s.eng ≠ .reserved ∧ s.dstate.isReserved = false ∧
      ((s.eng = .idle ∧ t = start (takeCmd s)) ∨ (s.eng ≠ .idle ∧ t = s)) := by
  obtain ⟨he, hd, hk⟩ := guardLegal_next h
  refine ⟨he, hd, ?_⟩
  split at hk <;> cases hk
  · exact .inl ⟨‹_›, rfl⟩
  · exact .inr ⟨‹_›, rfl⟩

/-! ### ENCODE at acceptance -/

theorem encodeCheck_eq_zero_iff (a i : Byte) (np : BitVec 3) :
    encodeCheck a i np = 0 ↔ a.toNat ≤ 254 ∧ isValidOpcode i = true ∧ np.toNat ≤ 4 := by
  have ha : Config.maxAddr < a.toNat ↔ ¬a.toNat ≤ 254 := by simp [Config.maxAddr]
  have hn : Config.maxParams < np.toNat ↔ ¬np.toNat ≤ 4 := by simp [Config.maxParams]
  unfold encodeCheck
  simp only [ha, hn]
  by_cases h1 : a.toNat ≤ 254 <;> by_cases h2 : isValidOpcode i = true <;> by_cases h3 : np.toNat ≤ 4 <;>
    simp [h1, h2, h3, badAddr, badInstr, badNParam]

/-- An ENCODE whose operands R58 accepts puts its frame on offer (R57). -/
theorem startEncode_legal {v : Byte} {o : EncOperands} (s : State) (h : encodeCheck o.addr v o.nparam = 0) :
    startEncode v o s =
      { s with
        txBuf := writeFrame s.txBuf (frame o.addr v (params o))
        txN := BitVec.ofNat 4 (o.nparam.toNat + 6), txI := 0, eng := .encode } := by
  have hn := ((encodeCheck_eq_zero_iff _ _ _).1 h).2.2
  simp [startEncode, h, params_length o hn]

/-- Any other ENCODE reports its reasons and does nothing else (R58). -/
theorem startEncode_illegal {v : Byte} {o : EncOperands} (s : State) (h : encodeCheck o.addr v o.nparam ≠ 0) :
    startEncode v o s = raise (.encodingError (encodeCheck o.addr v o.nparam)) s := by
  unfold startEncode
  exact if_pos h

/-! ### exec -/

theorem byte_eq_ofNat {v : Byte} {n : Nat} (h : v.toNat = n) : v = BitVec.ofNat 8 n := by
  subst h
  simp

/-- Every row of ENCODE does what the generic ENCODE does with the row's instruction byte (42_opcode_values.md). -/
theorem exec_encodeRow (v : Byte) (o : EncOperands) (s : State) : exec (encodeRow v o) s = encodeCommand v o s := by
  unfold encodeRow
  split
  case h_29 => rfl
  all_goals
    rename_i h
    obtain rfl := byte_eq_ofNat h
    rfl

/-- Every instruction is the acceptance of an ENCODE with some instruction byte, or of a DECODE. -/
theorem exec_eq_accept (i : Instr) (s : State) :
    (i = .decode ∧ exec i s = accept startDecode s) ∨
      (i ≠ .decode ∧ ∃ v o, exec i s = accept (startEncode v o) s) := by
  cases i <;> first
    | exact .inl ⟨rfl, rfl⟩
    | exact .inr ⟨nofun, _, _, rfl⟩

/-- Everything an instruction can do at acceptance: wait at a busy engine, start a DECODE, put a frame on offer, or report why
an ENCODE is illegal (R45, R57, R58, R64). -/
theorem exec_next {i : Instr} {s t : State} (h : exec i s = .next t) :
    s.eng ≠ .reserved ∧ s.dstate.isReserved = false ∧
      ((s.eng ≠ .idle ∧ t = s) ∨
        (s.eng = .idle ∧ i = .decode ∧ t = startDecode (takeCmd s)) ∨
        (s.eng = .idle ∧ i ≠ .decode ∧ ∃ v o, encodeCheck o.addr v o.nparam = 0 ∧
          t = { takeCmd s with
                txBuf := writeFrame s.txBuf (frame o.addr v (params o))
                txN := BitVec.ofNat 4 (o.nparam.toNat + 6), txI := 0, eng := .encode }) ∨
        (s.eng = .idle ∧ i ≠ .decode ∧ ∃ r, r ≠ 0 ∧ t = raise (.encodingError r) (takeCmd s))) := by
  rcases exec_eq_accept i s with ⟨hi, he⟩ | ⟨hi, v, o, he⟩
  all_goals
    rw [he] at h
    obtain ⟨h1, h2, ⟨h3, rfl⟩ | h3⟩ := accept_next h
  · exact ⟨h1, h2, .inr (.inl ⟨h3, hi, rfl⟩)⟩
  · exact ⟨h1, h2, .inl h3⟩
  · refine ⟨h1, h2, .inr (.inr ?_)⟩
    by_cases hc : encodeCheck o.addr v o.nparam = 0
    · exact .inl ⟨h3, hi, v, o, hc, by rw [startEncode_legal _ hc]; rfl⟩
    · exact .inr ⟨h3, hi, _, hc, startEncode_illegal _ hc⟩
  · exact ⟨h1, h2, .inl h3⟩

/-! ### One byte sent -/

theorem txAccept_next {s t : State} (h : txAccept s = .next t) :
    6 ≤ s.txN.toNat ∧ s.txN.toNat ≤ 10 ∧ s.txI.toNat ≤ 9 ∧
      ((s.txI.toNat + 1 < s.txN.toNat ∧
          t = { s with txSink := s.txSink ++ [txByte s s.txI.toNat], txI := s.txI + 1 }) ∨
        (s.txN.toNat ≤ s.txI.toNat + 1 ∧
          t = { s with
                txSink := s.txSink ++ [txByte s s.txI.toNat], res := txDoneResult s, resValid := true, eng := .idle
                txI := 0, sawTxDone := true })) := by
  unfold txAccept at h
  split at h
  · cases h
  · refine ⟨by omega, by omega, by omega, ?_⟩
    simp only at h
    split at h <;> cases h
    · exact .inl ⟨‹_›, rfl⟩
    · exact .inr ⟨by omega, rfl⟩

/-! ### One byte received -/

/-- Everything a received byte can do: it changes only the decoder's state and the capture registers, and the operation goes
on; or it was the right checksum byte, and the DECODE completes with the frame (R65 to R72). -/
theorem receive_next {b : Byte} {s t : State} (h : receive b s = .next t) :
    (∃ d a l i hi np pi ps,
        t = { s with
              dstate := d, rxAddr := a, rxLen := l, rxInstr := i, rxHi := hi, rxNp := np, rxPi := pi, rxP := ps }) ∨
      (s.dstate = .readChecksum ∧ s.rxNp.toNat ≤ 4 ∧ b = chk (capturedBody s) ∧
        t = { s with
              res := frameResult b s, resValid := true, eng := .idle, dstate := .seekMarker1, sawTxDone := false }) := by
  unfold receive at h
  split at h
  · cases h
    left
    unfold rxSeekMarker1
    split <;> exact ⟨_, _, _, _, _, _, _, _, rfl⟩
  · cases h
    left
    unfold rxSeekMarker2
    split <;> exact ⟨_, _, _, _, _, _, _, _, rfl⟩
  · left
    unfold rxReadHeader at h
    split at h <;> cases h
    · exact ⟨_, _, _, _, _, _, _, _, rfl⟩
    · exact ⟨_, _, _, _, _, _, _, _, rfl⟩
    · unfold lengthCheck
      split
      · exact ⟨_, _, _, _, _, _, _, _, rfl⟩
      · dsimp only
        split <;> exact ⟨_, _, _, _, _, _, _, _, rfl⟩
  · left
    unfold rxReadParams at h
    split at h
    · cases h
    · dsimp only at h
      split at h <;> cases h <;> exact ⟨_, _, _, _, _, _, _, _, rfl⟩
  · unfold rxReadChecksum at h
    split at h
    · cases h
    · split at h <;> cases h
      · exact .inr ⟨‹_›, by omega, ‹_›, rfl⟩
      · exact .inl ⟨_, _, _, _, _, _, _, _, rfl⟩
  all_goals cases h

/-! ### The environment -/

/-- The only moves of the environment that change anything line up a host item or bring a byte to the RX source. -/
theorem environmentMove_cases (t : Turn) (s : State) :
    (∃ i, t = .present i ∧ environmentMove t s = { s with hostQueue := s.hostQueue ++ [i] }) ∨
    (∃ b, t = .arrive b ∧ environmentMove t s = { s with rxSource := s.rxSource ++ [b] }) ∨
    ((∀ i, t ≠ .present i) ∧ (∀ b, t ≠ .arrive b) ∧ environmentMove t s = s) := by
  cases t <;> simp [environmentMove]

/-- The word on the port stands in the host's list after items that are skipped, none of them a plain word (R53). -/
theorem hostOffer_split (b : Bool) (q : List HostItem) (w : CmdWord) (h : (hostOffer b q).map Prod.fst = some w) :
    ∃ skipped item, q = skipped ++ item :: ((hostOffer b q).map Prod.snd).getD [] ∧
      (∀ v, HostItem.word v ∉ skipped) ∧ (item = .word w ∨ item = .afterTxDone w) := by
  induction q with
  | nil => simp [hostOffer] at h
  | cons x q ih =>
    cases x with
    | word x =>
      simp [hostOffer] at h
      exact ⟨[], .word x, by simp [hostOffer], by simp, by simp [h]⟩
    | afterTxDone x =>
      cases b with
      | true =>
        simp [hostOffer] at h
        exact ⟨[], .afterTxDone x, by simp [hostOffer], by simp, by simp [h]⟩
      | false =>
        simp only [hostOffer, Bool.false_eq_true, if_false] at h ⊢
        obtain ⟨sk, it, h1, h2, h3⟩ := ih h
        refine ⟨.afterTxDone x :: sk, it, ?_, by simpa using h2, h3⟩
        rw [List.cons_append, ← h1]

end Sys2Proof.Machine
end

