-- ==== Sys2Proof/Laws/PerInstr.lean ====
section
/-! SUPPORT. The family `WordFields`: the command word that the encoder writes for an instruction carries the operation bit,
the instruction byte and the operands of its row (R44, R50, 42_opcode_values.md). -/

namespace Sys2Proof.Laws.WordFields

/-- `w` is the word of an ENCODE with instruction byte `v` and operands `o`. -/
def IsEncodeWord (w : CmdWord) (v : Byte) (o : EncOperands) : Prop :=
  cmdOp w = 0 ∧ cmdInstr w = v ∧ cmdOperands w = o

def Statement : Instr → Prop
  | .encode o v => IsEncodeWord (Sys2Proof.encode (.encode o v)) v o
  | .decode => cmdOp (Sys2Proof.encode .decode) = 1
  | .move o => IsEncodeWord (Sys2Proof.encode (.move o)) 1 o
  | .moveRead o => IsEncodeWord (Sys2Proof.encode (.moveRead o)) 2 o
  | .moveWaitWrite o => IsEncodeWord (Sys2Proof.encode (.moveWaitWrite o)) 7 o
  | .moveWaitRead o => IsEncodeWord (Sys2Proof.encode (.moveWaitRead o)) 8 o
  | .moveStart o => IsEncodeWord (Sys2Proof.encode (.moveStart o)) 11 o
  | .moveStop o => IsEncodeWord (Sys2Proof.encode (.moveStop o)) 12 o
  | .idWrite o => IsEncodeWord (Sys2Proof.encode (.idWrite o)) 13 o
  | .idRead o => IsEncodeWord (Sys2Proof.encode (.idRead o)) 14 o
  | .angleOffsetAdjust o => IsEncodeWord (Sys2Proof.encode (.angleOffsetAdjust o)) 17 o
  | .angleOffsetWrite o => IsEncodeWord (Sys2Proof.encode (.angleOffsetWrite o)) 18 o
  | .angleOffsetRead o => IsEncodeWord (Sys2Proof.encode (.angleOffsetRead o)) 19 o
  | .angleLimitWrite o => IsEncodeWord (Sys2Proof.encode (.angleLimitWrite o)) 20 o
  | .angleLimitRead o => IsEncodeWord (Sys2Proof.encode (.angleLimitRead o)) 21 o
  | .voltageLimitWrite o => IsEncodeWord (Sys2Proof.encode (.voltageLimitWrite o)) 22 o
  | .voltageLimitRead o => IsEncodeWord (Sys2Proof.encode (.voltageLimitRead o)) 23 o
  | .temperatureLimitWrite o => IsEncodeWord (Sys2Proof.encode (.temperatureLimitWrite o)) 24 o
  | .temperatureLimitRead o => IsEncodeWord (Sys2Proof.encode (.temperatureLimitRead o)) 25 o
  | .temperatureRead o => IsEncodeWord (Sys2Proof.encode (.temperatureRead o)) 26 o
  | .voltageRead o => IsEncodeWord (Sys2Proof.encode (.voltageRead o)) 27 o
  | .positionRead o => IsEncodeWord (Sys2Proof.encode (.positionRead o)) 28 o
  | .modeWrite o => IsEncodeWord (Sys2Proof.encode (.modeWrite o)) 29 o
  | .modeRead o => IsEncodeWord (Sys2Proof.encode (.modeRead o)) 30 o
  | .loadWrite o => IsEncodeWord (Sys2Proof.encode (.loadWrite o)) 31 o
  | .loadRead o => IsEncodeWord (Sys2Proof.encode (.loadRead o)) 32 o
  | .ledWrite o => IsEncodeWord (Sys2Proof.encode (.ledWrite o)) 33 o
  | .ledRead o => IsEncodeWord (Sys2Proof.encode (.ledRead o)) 34 o
  | .ledErrorWrite o => IsEncodeWord (Sys2Proof.encode (.ledErrorWrite o)) 35 o
  | .ledErrorRead o => IsEncodeWord (Sys2Proof.encode (.ledErrorRead o)) 36 o

theorem encode (o : EncOperands) (v : Byte) : Statement (.encode o v) := packEncode_fields v o

theorem decode : Statement .decode := by
  show cmdOp 1 = 1
  decide

theorem move (o : EncOperands) : Statement (.move o) := packEncode_fields 1 o

theorem moveRead (o : EncOperands) : Statement (.moveRead o) := packEncode_fields 2 o

theorem moveWaitWrite (o : EncOperands) : Statement (.moveWaitWrite o) := packEncode_fields 7 o

theorem moveWaitRead (o : EncOperands) : Statement (.moveWaitRead o) := packEncode_fields 8 o

theorem moveStart (o : EncOperands) : Statement (.moveStart o) := packEncode_fields 11 o

theorem moveStop (o : EncOperands) : Statement (.moveStop o) := packEncode_fields 12 o

theorem idWrite (o : EncOperands) : Statement (.idWrite o) := packEncode_fields 13 o

theorem idRead (o : EncOperands) : Statement (.idRead o) := packEncode_fields 14 o

theorem angleOffsetAdjust (o : EncOperands) : Statement (.angleOffsetAdjust o) := packEncode_fields 17 o

theorem angleOffsetWrite (o : EncOperands) : Statement (.angleOffsetWrite o) := packEncode_fields 18 o

theorem angleOffsetRead (o : EncOperands) : Statement (.angleOffsetRead o) := packEncode_fields 19 o

theorem angleLimitWrite (o : EncOperands) : Statement (.angleLimitWrite o) := packEncode_fields 20 o

theorem angleLimitRead (o : EncOperands) : Statement (.angleLimitRead o) := packEncode_fields 21 o

theorem voltageLimitWrite (o : EncOperands) : Statement (.voltageLimitWrite o) := packEncode_fields 22 o

theorem voltageLimitRead (o : EncOperands) : Statement (.voltageLimitRead o) := packEncode_fields 23 o

theorem temperatureLimitWrite (o : EncOperands) : Statement (.temperatureLimitWrite o) := packEncode_fields 24 o

theorem temperatureLimitRead (o : EncOperands) : Statement (.temperatureLimitRead o) := packEncode_fields 25 o

theorem temperatureRead (o : EncOperands) : Statement (.temperatureRead o) := packEncode_fields 26 o

theorem voltageRead (o : EncOperands) : Statement (.voltageRead o) := packEncode_fields 27 o

theorem positionRead (o : EncOperands) : Statement (.positionRead o) := packEncode_fields 28 o

theorem modeWrite (o : EncOperands) : Statement (.modeWrite o) := packEncode_fields 29 o

theorem modeRead (o : EncOperands) : Statement (.modeRead o) := packEncode_fields 30 o

theorem loadWrite (o : EncOperands) : Statement (.loadWrite o) := packEncode_fields 31 o

theorem loadRead (o : EncOperands) : Statement (.loadRead o) := packEncode_fields 32 o

theorem ledWrite (o : EncOperands) : Statement (.ledWrite o) := packEncode_fields 33 o

theorem ledRead (o : EncOperands) : Statement (.ledRead o) := packEncode_fields 34 o

theorem ledErrorWrite (o : EncOperands) : Statement (.ledErrorWrite o) := packEncode_fields 35 o

theorem ledErrorRead (o : EncOperands) : Statement (.ledErrorRead o) := packEncode_fields 36 o

end Sys2Proof.Laws.WordFields
end

