-- ==== Sys2Proof/Laws/Step.lean ====
section
/-! SUPPORT. What a step can do, said once: one inversion lemma for every step, and one equation for each event. -/

namespace Sys2Proof.Machine

theorem popTurn_cons {s : State} {t : Turn} {ts : List Turn} (h : s.schedule = t :: ts) :
    popTurn s = { s with schedule := ts } := by
  simp [popTurn, h]

theorem nextTurn_cons {s : State} {t : Turn} {ts : List Turn} (h : s.schedule = t :: ts) : nextTurn s = t := by
  simp [nextTurn, h]

@[simp] theorem presentedCmd_popTurn (s : State) : presentedCmd (popTurn s) = presentedCmd s := by simp [presentedCmd]

@[simp] theorem hostRest_popTurn (s : State) : hostRest (popTurn s) = hostRest s := by simp [hostRest]

/-- The decoder's view of a step: an ENCODE word is executed as its row, a DECODE word as DECODE. -/
theorem exec_decodeWord_encode {w : CmdWord} (h : cmdOp w = 0) (s : State) :
    exec (decodeWord w) s = encodeCommand (cmdInstr w) (cmdOperands w) s := by
  simp [decodeWord, h, exec_encodeRow]

/-- exec has its own guard, so the guard of the step changes nothing. -/
theorem guardLegal_exec (i : Instr) (s : State) : guardLegal s (exec i s) = exec i s := by
  rcases exec_eq_accept i s with ⟨_, h⟩ | ⟨_, _, _, h⟩ <;> rw [h] <;> simp [accept]

/-- What a step that goes on does: the values of `ENG` and `DSTATE` are legal, and then one case per event of R6 and one for a
turn without an event. -/
theorem step_next {s t : State} (h : step s = .next t) :
    s.eng ≠ .reserved ∧ s.dstate.isReserved = false ∧
      ((nextTurn s = .reset ∧ t = resetBlock (popTurn s)) ∨
        (nextTurn s = .host ∧ s.eng = .idle ∧ ∃ w, presentedCmd s = some w ∧
          exec (decodeWord w) (popTurn s) = .next t) ∨
        (nextTurn s = .txAccept ∧ s.eng = .encode ∧ txAccept (popTurn s) = .next t) ∨
        (nextTurn s = .rxDeliver ∧ s.eng = .decode ∧ ∃ b rest, s.rxSource = b :: rest ∧
          receive b (consume (popTurn s)) = .next t) ∨
        (nextTurn s = .timeout ∧ s.eng = .decode ∧ t = timeoutEvent (popTurn s)) ∨
        (enabledEvent (nextTurn s) (popTurn s) = none ∧ nextTurn s ≠ .reset ∧
          t = environmentMove (nextTurn s) (popTurn s))) := by
  obtain ⟨h1, h2, h⟩ := guardLegal_next h
  refine ⟨by simpa using h1, by simpa using h2, ?_⟩
  split at h
  all_goals
    rename_i he
  · left
    unfold enabledEvent at he
    split at he <;> simp_all
  · right; left
    unfold enabledEvent at he
    split at he <;> simp_all
  · right; right; left
    unfold enabledEvent at he
    split at he <;> simp_all
  · right; right; right; left
    unfold enabledEvent at he
    split at he <;> simp_all
    rename_i hr
    obtain ⟨rest, hr⟩ := List.head?_eq_some_iff.1 (by simpa using he.2)
    exact ⟨_, ⟨rest, hr⟩, h⟩
  · right; right; right; right; left
    unfold enabledEvent at he
    split at he <;> simp_all
  · right; right; right; right; right
    refine ⟨he, ?_, by simpa using h.symm⟩
    intro hr
    simp [hr, enabledEvent] at he

/-- A host's turn at an idle engine runs the decoded word (R45). -/
theorem step_host {s : State} {w : CmdWord} (he : s.eng = .idle) (ht : nextTurn s = .host)
    (hw : presentedCmd s = some w) : step s = exec (decodeWord w) (popTurn s) := by
  simp [step, stepTurn, ht, enabledEvent, he, hw, guardLegal_exec]

theorem step_txAccept {s : State} (he : s.eng = .encode) (hd : s.dstate.isReserved = false)
    (ht : nextTurn s = .txAccept) : step s = txAccept (popTurn s) := by
  simp [step, stepTurn, ht, enabledEvent, he, guardLegal, hd]

theorem step_rx {s : State} {b : Byte} {rest : List Byte} (he : s.eng = .decode) (hd : s.dstate.isReserved = false)
    (ht : nextTurn s = .rxDeliver) (hb : s.rxSource = b :: rest) :
    step s = receive b { popTurn s with rxSource := rest } := by
  simp [step, stepTurn, ht, enabledEvent, he, guardLegal, hd, hb, consume]

theorem step_timeout {s : State} (he : s.eng = .decode) (hd : s.dstate.isReserved = false)
    (ht : nextTurn s = .timeout) : step s = .next (timeoutEvent (popTurn s)) := by
  simp [step, stepTurn, ht, enabledEvent, he, guardLegal, hd]

theorem step_reset {s : State} (he : s.eng ≠ .reserved) (hd : s.dstate.isReserved = false) (ht : nextTurn s = .reset) :
    step s = .next (resetBlock (popTurn s)) := by
  simp [step, stepTurn, ht, enabledEvent, guardLegal, he, hd]

/-- A turn without an event of the block leaves the block alone (R12; log entry 2). -/
theorem step_noEvent {s : State} (he : s.eng ≠ .reserved) (hd : s.dstate.isReserved = false)
    (hn : enabledEvent (nextTurn s) (popTurn s) = none) :
    step s = .next (environmentMove (nextTurn s) (popTurn s)) := by
  simp [step, stepTurn, hn, guardLegal, he, hd]

/-- A step in a state with an illegal value faults, whatever the turn (R16, R17). -/
theorem step_illegal {s : State} (h : s.eng = .reserved ∨ s.dstate.isReserved = true) :
    step s = if s.eng = .reserved then .fault .engReserved else .fault .dstateReserved := by
  unfold step stepTurn guardLegal
  simp only [popTurn_eng, popTurn_dstate]
  rcases h with h | h <;> simp [h]

/-! ### Runs -/

@[simp] theorem run_zero (s : State) : core.run 0 s = .next s := rfl

theorem run_succ {s t : State} (h : step s = .next t) (k : Nat) : core.run (k + 1) s = core.run k t := by
  have : core.step s = .next t := h
  simp [Host.Core.run, this]

theorem run_add {s t : State} {m : Nat} (h : core.run m s = .next t) (k : Nat) : core.run (m + k) s = core.run k t := by
  induction m generalizing s with
  | zero =>
    cases h
    simp
  | succ m ih =>
    cases hs : step s with
    | next u =>
      rw [run_succ hs] at h
      rw [show m + 1 + k = (m + k) + 1 by omega, run_succ hs, ih h]
    | fault r =>
      have : core.step s = .fault r := hs
      simp [Host.Core.run, this] at h
    | refused r =>
      have : core.step s = .refused r := hs
      simp [Host.Core.run, this] at h

end Sys2Proof.Machine
end

