-- ==== Sys2Proof/Tests/Slice0.lean ====
section
/-! SUPPORT. Tests: the smoke test of WellFormed, words and bytes written out from the spec, single steps whose results come
from 95_test_vectors.md, and for each obligation with hypotheses a state and operands that meet them. -/

namespace Sys2Proof.Tests
open Sys2Proof.Machine Sys2Proof.Claims

/-! ### Small states -/

/-- The next state, if there is one. -/
def nextState : Out → Option State
  | .next t => some t
  | .fault _ => none
  | .refused _ => none

/-- An idle engine at the host's turn, with these items lined up. -/
def hostTurn (q : List HostItem) : State := { State.reset with hostQueue := q, schedule := [.host] }

/-- An ENCODE of V-E1's frame in progress, with `n` bytes to send and byte `i` on offer. -/
def sendingState (n i : BitVec 4) : State :=
  { State.reset with
    eng := .encode, txBuf := #v[0x55, 0x55, 0x01, 0x07, 0x01, 0xC8, 0x00, 0xC8, 0x00, 0x66], txN := n, txI := i
    schedule := [.txAccept] }

/-- A DECODE in progress in decoder state `d`, with these bytes in the RX source, one of which is delivered next. -/
def readingState (d : DState) (bytes : List Byte) : State :=
  { State.reset with eng := .decode, dstate := d, rxSource := bytes, schedule := [.rxDeliver] }

/-- READ_CHECKSUM of V-D1 after nine bytes, with checksum byte `c` next. -/
def checksumState (c : Byte) : State :=
  { readingState .readChecksum [c] with
    rxAddr := 1, rxLen := 7, rxInstr := 1, rxHi := 2, rxNp := 4, rxPi := 4, rxP := #v[0xC8, 0x00, 0xC8, 0x00] }

/-- What the host reads after a step: STATUS and RES. -/
def reads (s : State) : Option (BitVec 8 × ResWord) := (nextState (step s)).map fun t => (status t, readRes t)

/-- The first `n` bytes of `TXBUF` after running the word `w` as the first instruction after reset. -/
def frameOf (w n : Nat) : Option (List Byte) :=
  (nextState (step (State.reset.withFetchWord 56 w))).map fun t => t.txBuf.toList.take n

/-- Four parameters, all fields different. -/
def operands4 : EncOperands := ⟨4, 5, 0x11, 0x22, 0x33, 0x44⟩

/-! ### WellFormed -/

/-- The generic ENCODE is no term for a word whose instruction byte has its own row (R50, R51). -/
theorem test_wf_refuses_legal_byte :
    (Instr.encode operands4 1).wf = false ∧ (Instr.encode operands4 14).wf = false ∧
      (Instr.encode operands4 17).wf = false ∧ (Instr.encode operands4 36).wf = false := by decide

theorem test_wf_accepts_illegal_bytes :
    (Instr.encode operands4 0).wf = true ∧ (Instr.encode operands4 3).wf = true ∧
      (Instr.encode operands4 37).wf = true ∧ (Instr.encode operands4 255).wf = true := by decide

/-! ### Decoding words written out from R44 and the opcode table -/

theorem test_decode_move_and_id_words :
    decodeTableWord 56 0x44332211010508 = some (.move operands4) ∧
    decodeTableWord 56 0x44332211020508 = some (.moveRead operands4) ∧
    decodeTableWord 56 0x44332211070508 = some (.moveWaitWrite operands4) ∧
    decodeTableWord 56 0x44332211080508 = some (.moveWaitRead operands4) ∧
    decodeTableWord 56 0x443322110B0508 = some (.moveStart operands4) ∧
    decodeTableWord 56 0x443322110C0508 = some (.moveStop operands4) ∧
    decodeTableWord 56 0x443322110D0508 = some (.idWrite operands4) ∧
    decodeTableWord 56 0x443322110E0508 = some (.idRead operands4) := by decide

theorem test_decode_offset_and_limit_words :
    decodeTableWord 56 0x44332211110508 = some (.angleOffsetAdjust operands4) ∧
    decodeTableWord 56 0x44332211120508 = some (.angleOffsetWrite operands4) ∧
    decodeTableWord 56 0x44332211130508 = some (.angleOffsetRead operands4) ∧
    decodeTableWord 56 0x44332211140508 = some (.angleLimitWrite operands4) ∧
    decodeTableWord 56 0x44332211150508 = some (.angleLimitRead operands4) ∧
    decodeTableWord 56 0x44332211160508 = some (.voltageLimitWrite operands4) ∧
    decodeTableWord 56 0x44332211170508 = some (.voltageLimitRead operands4) ∧
    decodeTableWord 56 0x44332211180508 = some (.temperatureLimitWrite operands4) ∧
    decodeTableWord 56 0x44332211190508 = some (.temperatureLimitRead operands4) := by decide

theorem test_decode_servo_words :
    decodeTableWord 56 0x443322111A0508 = some (.temperatureRead operands4) ∧
    decodeTableWord 56 0x443322111B0508 = some (.voltageRead operands4) ∧
    decodeTableWord 56 0x443322111C0508 = some (.positionRead operands4) ∧
    decodeTableWord 56 0x443322111D0508 = some (.modeWrite operands4) ∧
    decodeTableWord 56 0x443322111E0508 = some (.modeRead operands4) ∧
    decodeTableWord 56 0x443322111F0508 = some (.loadWrite operands4) ∧
    decodeTableWord 56 0x44332211200508 = some (.loadRead operands4) ∧
    decodeTableWord 56 0x44332211210508 = some (.ledWrite operands4) ∧
    decodeTableWord 56 0x44332211220508 = some (.ledRead operands4) ∧
    decodeTableWord 56 0x44332211230508 = some (.ledErrorWrite operands4) ∧
    decodeTableWord 56 0x44332211240508 = some (.ledErrorRead operands4) := by decide

/-- `CMD[0]` alone makes a DECODE, `CMD[7:4]` is ignored in an ENCODE, and an illegal instruction byte is the generic row
(R46, R51). -/
theorem test_decode_generic_words :
    decodeTableWord 56 0x00000000000001 = some .decode ∧
    decodeTableWord 56 0xFFFFFFFFFFFFFF = some .decode ∧
    decodeTableWord 56 0xAABBCCDD1C01F0 = some (.positionRead ⟨0, 1, 0xDD, 0xCC, 0xBB, 0xAA⟩) ∧
    decodeTableWord 56 0x0000000000FF0A = some (.encode ⟨5, 255, 0, 0, 0, 0⟩ 0) ∧
    decode [0x01, 0x02, 0x03] = .error .shortWord := by decide

/-- R44: the words of V-E1, V-E6 and P1's DECODE. -/
theorem test_encode_words :
    encode (.move ⟨4, 1, 200, 0, 200, 0⟩) = 0x00C800C8010108 ∧
    encode (.move ⟨4, 254, 0xE8, 0x03, 0x30, 0x75⟩) = 0x753003E801FE08 ∧
    encode .decode = 0x00000000000001 := by decide

/-! ### The assembler (R52, R53) -/

theorem test_assembler_lines :
    assembleLine (.encode 1 (.sym "MOVE") [200, 0, 200, 0]) = some [.word 0x00C800C8010108] ∧
    assembleLine (.query 1 (.sym "POSITION_READ") []) = some [.word 0x000000001C0100, .afterTxDone 1] ∧
    assembleLine (.encode 254 (.sym "LED_ERROR_READ") [255, 255, 255, 255]) = some [.word 0xFFFFFFFF24FE08] ∧
    assembleLine (.encode 255 (.num 1) []) = some [.word 0x0000000001FF00] := by decide

theorem test_assembler_refuses :
    assembleLine (.encode 256 (.num 1) []) = none ∧ assembleLine (.encode 1 (.num 1) [1, 2, 3, 4, 5]) = none ∧
    assembleLine (.encode 1 (.sym "NO_SUCH_NAME") []) = none := by decide

/-! ### Checksums: V-C1 to V-C10 -/

theorem test_checksum_vectors :
    chk [0x01, 0x07, 0x01, 0xC8, 0x00, 0xC8, 0x00] = 0x66 ∧ chk [0x00, 0x00, 0x00] = 0xFF ∧ chk [0xFE, 0x01] = 0x00 ∧
    chk [0xF1, 0x03, 0x0B] = 0x00 ∧ chk [0x9F, 0x03, 0x08] = 0x55 ∧
    chk [0xFF, 0x07, 0xFF, 0xFF, 0xFF, 0xFF, 0xFF] = 0xFE ∧ chk [0xFE, 0x07, 0x24, 0xFF, 0xFF, 0xFF, 0xFF] = 0xDA ∧
    chk [0xFF, 0x02] = 0xFE ∧ chk [0x55, 0x01, 0x03] = 0xA6 ∧ chk [0x55, 0x01, 0x07] = 0xA2 := by decide

/-! ### ENCODE: frames, one row of each vector table, run as the first instruction after reset -/

/-- V-E1, V-E6, V-E9, V-E8. -/
theorem test_frames_with_parameters :
    frameOf 0x00C800C8010108 10 = some [0x55, 0x55, 0x01, 0x07, 0x01, 0xC8, 0x00, 0xC8, 0x00, 0x66] ∧
    frameOf 0x753003E801FE08 10 = some [0x55, 0x55, 0xFE, 0x07, 0x01, 0xE8, 0x03, 0x30, 0x75, 0x69] ∧
    frameOf 0xFC1800011D0108 10 = some [0x55, 0x55, 0x01, 0x07, 0x1D, 0x01, 0x00, 0x18, 0xFC, 0xC5] ∧
    frameOf 0xFFFFFFFF24FE08 10 = some [0x55, 0x55, 0xFE, 0x07, 0x24, 0xFF, 0xFF, 0xFF, 0xFF, 0xDA] := by decide

/-- V-E11, V-E2, V-E4, V-E10, V-E14, V-E16, V-E12. -/
theorem test_frames_of_move_and_id_rows :
    frameOf 0x00000000010100 6 = some [0x55, 0x55, 0x01, 0x03, 0x01, 0xFA] ∧
    frameOf 0x000000000BFE00 6 = some [0x55, 0x55, 0xFE, 0x03, 0x0B, 0xF3] ∧
    frameOf 0x000000000C0000 6 = some [0x55, 0x55, 0x00, 0x03, 0x0C, 0xF0] ∧
    frameOf 0x000000000E0500 6 = some [0x55, 0x55, 0x05, 0x03, 0x0E, 0xE9] ∧
    frameOf 0x03E801F407FE08 10 = some [0x55, 0x55, 0xFE, 0x07, 0x07, 0xF4, 0x01, 0xE8, 0x03, 0x13] ∧
    frameOf 0x00000000089F00 6 = some [0x55, 0x55, 0x9F, 0x03, 0x08, 0x55] ∧
    frameOf 0x000000020D0102 7 = some [0x55, 0x55, 0x01, 0x04, 0x0D, 0x02, 0xEB] := by decide

/-- V-E3, V-E5, V-E13, V-E25. -/
theorem test_frames_of_servo_rows :
    frameOf 0x000000001C0100 6 = some [0x55, 0x55, 0x01, 0x03, 0x1C, 0xDF] ∧
    frameOf 0x0000000024FD00 6 = some [0x55, 0x55, 0xFD, 0x03, 0x24, 0xDB] ∧
    frameOf 0x00000007230102 7 = some [0x55, 0x55, 0x01, 0x04, 0x23, 0x07, 0xD0] ∧
    frameOf 0xAABBCCDD1C01F0 6 = some [0x55, 0x55, 0x01, 0x03, 0x1C, 0xDF] := by decide

/-- V-E17, V-E19, V-E22, V-E23, V-E24: each completes in its accepting step. -/
theorem test_illegal_encodes :
    reads (hostTurn [.word 0x0000000001FF00]) = some (3, 0x000000000000000007) ∧
    reads (hostTurn [.word 0x00000000030100]) = some (3, 0x00000000000000000B) ∧
    reads (hostTurn [.word 0x0000000001010A]) = some (3, 0x000000000000000013) ∧
    reads (hostTurn [.word 0x0000000000FF0A]) = some (3, 0x00000000000000001F) ∧
    reads (hostTurn [.word 0x0000000001FF0E]) = some (3, 0x000000000000000017) := by decide

/-- V-H2: after acceptance STATUS is 0. -/
theorem test_status_while_sending : reads (hostTurn [.word 0x000000000B0100]) = some (0, 0) := by decide

/-! ### Sending -/

/-- V-E1's last byte. -/
theorem test_last_byte_of_move :
    reads (sendingState 10 9) = some (3, 0x6600C800C801070180) ∧
    (nextState (step (sendingState 10 9))).map (·.txSink) = some [0x66] := by decide

theorem test_first_byte_of_move :
    reads (sendingState 10 0) = some (0, 0) ∧
    (nextState (step (sendingState 10 0))).map (fun t => (t.txSink, t.txI)) = some ([0x55], 1) := by decide

/-- V-H6: reset after four bytes. -/
theorem test_reset_while_sending :
    reads { sendingState 10 4 with schedule := [.reset] } = some (1, 0) ∧
    (nextState (step { sendingState 10 4 with schedule := [.reset] })).map (·.txBuf) =
      some #v[0, 0, 0, 0, 0, 0, 0, 0, 0, 0] := by decide

/-! ### Receiving -/

/-- V-D1 and V-D5: the checksum byte. -/
theorem test_checksum_byte :
    reads (checksumState 0x66) = some (3, 0x6600C800C801070181) ∧ reads (checksumState 0x67) = some (0, 0) ∧
    (nextState (step (checksumState 0x67))).map (·.dstate) = some .seekMarker1 := by decide

/-- V-D7: a length byte of 0 has no parameters. -/
theorem test_length_zero :
    (nextState (step { readingState .readHeader [0x05, 0xF9] with rxAddr := 1, rxHi := 2 })).map
      (fun t => (t.dstate, t.rxNp, t.rxSource)) = some (.readChecksum, 0, [0xF9]) := by decide

/-- V-D22: a length byte of 8 is discarded, and the byte after the instruction byte is examined next. -/
theorem test_length_eight :
    (nextState (step { readingState .readHeader [0x01, 0x55] with rxAddr := 1, rxLen := 8, rxHi := 2 })).map
      (fun t => (t.dstate, t.rxSource)) = some (.seekMarker1, [0x55]) := by decide

/-- V-D4: a byte other than the marker after a marker is discarded and not examined again. -/
theorem test_broken_marker_pair :
    (nextState (step (readingState .seekMarker2 [0x12, 0x55]))).map (fun t => (t.dstate, t.rxSource)) =
      some (.seekMarker1, [0x55]) := by decide

/-- V-D23: a timeout leaves the byte that has not been delivered. -/
theorem test_timeout :
    reads { checksumState 0x66 with schedule := [.timeout] } = some (3, 0x000000000000000002) ∧
    (nextState (step { checksumState 0x66 with schedule := [.timeout] })).map (·.rxSource) = some [0x66] := by decide

/-- V-H4: an accepted DECODE reads STATUS 0. -/
theorem test_accept_decode :
    (nextState (step (hostTurn [.word 1]))).map (fun t => (t.eng, t.dstate, status t)) =
      some (.decode, .seekMarker1, 0) := by decide

/-- V-H7 and V-H8. -/
theorem test_nothing_happens_out_of_turn :
    (nextState (step { State.reset with rxSource := [0x55], schedule := [.rxDeliver] })).map (·.rxSource) = some [0x55] ∧
    (nextState (step { readingState .seekMarker1 [] with hostQueue := [.word 0x000000000C0100], schedule := [.host] })).map
      (·.hostQueue) = some [.word 0x000000000C0100] := by decide

/-- R53: the DECODE of a QUERY waits for TX_DONE. -/
theorem test_query_decode :
    presentedCmd { hostTurn [.afterTxDone 1, .word 0x000000000C0100] with sawTxDone := true } = some 1 ∧
    presentedCmd (hostTurn [.afterTxDone 1, .word 0x000000000C0100]) = some 0x000000000C0100 := by decide

/-- R53, R132: a DECODE presented after TX_DONE stays on the port through a reset, and one whose ENCODE a reset abandons is never
presented. -/
theorem test_query_decode_and_reset :
    (nextState (step { hostTurn [.afterTxDone 1] with sawTxDone := true, schedule := [.reset] })).map presentedCmd =
      some (some 1) ∧
    (nextState (step { sendingState 6 0 with hostQueue := [.afterTxDone 1], schedule := [.reset] })).map presentedCmd =
      some none := by decide

/-- V-H1. -/
theorem test_reset_values : status State.reset = 0x01 ∧ readRes State.reset = 0 := by decide

/-- R16, R17, U7, U8: no turn is a step, reset among them. -/
theorem test_reserved_values_fault :
    step { hostTurn [] with eng := .reserved, schedule := [.reset] } = .fault .engReserved ∧
    step { hostTurn [] with dstate := .reserved6, schedule := [.reset] } = .fault .dstateReserved ∧
    step { hostTurn [] with eng := .reserved } = .fault .engReserved := ⟨rfl, rfl, rfl⟩

/-! ### States and operands that meet the hypotheses of the obligations, at the ends of their ranges -/

theorem witness_ReservedEngineValueFaults :
    ({ hostTurn [] with eng := .reserved, schedule := [.reset] } : State).eng = .reserved := by decide

theorem witness_ReservedDecoderValueFaults :
    ∀ d ∈ [DState.reserved5, .reserved6, .reserved7],
      (d.code = 5 ∨ d.code = 6 ∨ d.code = 7) ∧ ({ readingState d [] with schedule := [.reset] } : State).eng ≠ .reserved ∧
        ({ hostTurn [] with dstate := d } : State).eng ≠ .reserved := by decide

theorem witness_FrameWriteKeepsLaterBytes :
    (frame 1 1 [1, 2, 3, 4]).length = 10 ∧ ([] : List Byte).length ≤ 10 := by decide

/-- A TX_DONE, a FRAME, a TIMEOUT and an ENCODING_ERROR. -/
theorem witness_OnlyCompletionWritesResult :
    (∃ t, step (sendingState 6 5) = .next t ∧ nextTurn (sendingState 6 5) ≠ .reset ∧ t.res ≠ (sendingState 6 5).res) ∧
    (∃ t, step (checksumState 0x66) = .next t ∧ nextTurn (checksumState 0x66) ≠ .reset ∧ t.res.kind = .frame) ∧
    (∃ t, step { checksumState 0 with schedule := [.timeout] } = .next t ∧ t.res.kind = .timeout) ∧
    (∃ t, step (hostTurn [.word 0]) = .next t ∧ t.res.kind = .encodingError) :=
  ⟨⟨_, rfl, by decide, by decide⟩, ⟨_, rfl, by decide, by decide⟩, ⟨_, rfl, by decide⟩, ⟨_, rfl, by decide⟩⟩

/-- An accepted command that completes, one that does not, and a step that ends an operation. -/
theorem witness_ResultValidFollowsTheCommand :
    (∃ t, step (hostTurn [.word 0]) = .next t ∧ AcceptsNow (hostTurn [.word 0]) ∧ t.resValid = true) ∧
    (∃ t, step (hostTurn [.word 1]) = .next t ∧ AcceptsNow (hostTurn [.word 1]) ∧ t.resValid = false) ∧
    (∃ t, step (sendingState 10 9) = .next t ∧ ¬AcceptsNow (sendingState 10 9) ∧
      nextTurn (sendingState 10 9) ≠ .reset ∧ t.resValid = true) := by
  unfold AcceptsNow
  exact ⟨⟨_, rfl, by decide, by decide⟩, ⟨_, rfl, by decide, by decide⟩, ⟨_, rfl, by decide, by decide, by decide⟩⟩

/-- A byte sent, a byte consumed, a byte that arrives. -/
theorem witness_StreamsMoveOneByteHalfDuplex :
    (∃ t, step (sendingState 10 0) = .next t ∧ t.txSink = [0x55]) ∧
    (∃ t, step (readingState .seekMarker1 [7]) = .next t ∧ t.rxSource = []) ∧
    (∃ t, step { State.reset with schedule := [.arrive 7] } = .next t ∧ t.rxSource = [7]) :=
  ⟨⟨_, rfl, by decide⟩, ⟨_, rfl, by decide⟩, ⟨_, rfl, by decide⟩⟩

/-- A busy state that goes on, and one that stops. -/
theorem witness_PortActivityDoesNotReachOperation :
    ((sendingState 10 0).eng ≠ .idle ∧ ∃ t, step (sendingState 10 0) = .next t) ∧
    ((sendingState 5 0).eng ≠ .idle ∧ ∀ u, step (sendingState 5 0) ≠ .next u) :=
  ⟨⟨by decide, _, rfl⟩, by decide, nofun⟩

theorem witness_FrameLayout : ([1, 2, 3, 4] : List Byte).length ≤ 4 ∧ 3 < ([1, 2, 3, 4] : List Byte).length := by decide

theorem witness_DecodeOfEncodeIsTheInstruction :
    (Instr.encode operands4 255).wf = true ∧ Instr.decode.wf = true ∧ (Instr.ledErrorRead operands4).wf = true := by decide

theorem witness_EncodeOfDecodeClearsReservedBits : cmdOp 0xAABBCCDD1C01F0 = 0 ∧ cmdOp 0xFFFFFFFFFFFFFF = 1 := by decide

theorem witness_StepRunsTheDecodedInstruction :
    (hostTurn [.word 0x00C800C8010108]).eng = .idle ∧ nextTurn (hostTurn [.word 0x00C800C8010108]) = .host ∧
      presentedCmd (hostTurn [.word 0x00C800C8010108]) = some 0x00C800C8010108 ∧
      decodeWord 0x00C800C8010108 = .move ⟨4, 1, 200, 0, 200, 0⟩ := by decide

theorem accepting_hostTurn (q : List HostItem) : Accepting (hostTurn q) := ⟨rfl, rfl⟩

/-- An accepted command whose result is valid at once, and both kinds of busy engine at the host's turn. -/
theorem witness_OnlyAnIdleEngineAccepts :
    (Accepting (hostTurn [.word 0]) ∧
      ∃ t, exec (.encode ⟨0, 0, 0, 0, 0, 0⟩ 0) (hostTurn [.word 0]) = .next t ∧ t.resValid = true) ∧
    ((sendingState 6 0).eng = .encode ∧ (sendingState 6 0).dstate.isReserved = false) ∧
    (({ readingState .readParams [] with schedule := [.host] } : State).eng = .decode ∧
      nextTurn { readingState .readParams [] with schedule := [.host] } = .host) :=
  ⟨⟨accepting_hostTurn _, _, rfl, by decide⟩, by decide, by decide⟩

/-- An accepted word behind a skipped one, an item lined up, and a step that leaves the queue. -/
theorem witness_EachWordIsAcceptedOnce :
    (∃ t, step (hostTurn [.afterTxDone 1, .word 1, .word 0]) = .next t ∧
      AcceptsNow (hostTurn [.afterTxDone 1, .word 1, .word 0]) ∧ t.hostQueue = [.word 0]) ∧
    (∃ t, step { State.reset with schedule := [.present (.word 1)] } = .next t ∧ t.hostQueue = [.word 1]) ∧
    (∃ t, step { hostTurn [.word 1] with schedule := [.wait] } = .next t ∧ t.hostQueue = [.word 1]) := by
  unfold AcceptsNow
  exact ⟨⟨_, rfl, by decide, by decide⟩, ⟨_, rfl, by decide⟩, ⟨_, rfl, by decide⟩⟩

/-- A QUERY's DECODE on the port of an idle engine at a reset, and a word shown to a busy engine whose ENCODE ends. -/
theorem witness_PresentedWordStaysUntilAccepted :
    (∃ t, step { hostTurn [.afterTxDone 1] with sawTxDone := true, schedule := [.reset] } = .next t ∧
      presentedCmd { hostTurn [.afterTxDone 1] with sawTxDone := true, schedule := [.reset] } = some 1 ∧
      ¬AcceptsNow { hostTurn [.afterTxDone 1] with sawTxDone := true, schedule := [.reset] }) ∧
    (∃ t, step { sendingState 6 5 with hostQueue := [.word 1] } = .next t ∧
      ¬AcceptsNow { sendingState 6 5 with hostQueue := [.word 1] }) := by
  unfold AcceptsNow
  exact ⟨⟨_, rfl, by decide, by decide⟩, ⟨_, rfl, by decide⟩⟩

/-- An acceptance, an ENCODE's end, a DECODE's end, and a reset after TX_DONE. -/
theorem witness_HostNoteFollowsTheResult :
    (∃ t, step { hostTurn [.word 0] with sawTxDone := true } = .next t ∧
      AcceptsNow { hostTurn [.word 0] with sawTxDone := true }) ∧
    (∃ t, step (sendingState 6 5) = .next t ∧ (sendingState 6 5).eng ≠ .idle ∧ t.eng = .idle ∧
      nextTurn (sendingState 6 5) ≠ .reset ∧ t.sawTxDone = true) ∧
    (∃ t, step (checksumState 0x66) = .next t ∧ (checksumState 0x66).eng ≠ .idle ∧ t.eng = .idle ∧ t.sawTxDone = false) ∧
    (∃ t, step { State.reset with sawTxDone := true, schedule := [.reset] } = .next t ∧ t.sawTxDone = true) := by
  unfold AcceptsNow
  exact ⟨⟨_, rfl, by decide⟩, ⟨_, rfl, by decide, by decide, by decide, by decide⟩,
    ⟨_, rfl, by decide, by decide, by decide⟩, ⟨_, rfl, by decide⟩⟩

/-- V-E25 and V-E3, all four parameters in use, and two DECODE words. -/
theorem witness_IgnoredBitsHaveNoEffect :
    SameCommand 0xAABBCCDD1C01F0 0x000000001C0100 ∧ SameCommand 0x00C800C80101F8 0x00C800C8010108 ∧
      SameCommand 0xFFFFFFFFFFFFFF 0x00000000000001 := by
  unfold SameCommand
  refine ⟨⟨by decide, fun _ => ⟨by decide, by decide, by decide, by decide⟩⟩,
    ⟨by decide, fun _ => ⟨by decide, by decide, by decide, by decide⟩⟩, ⟨by decide, fun h => absurd h (by decide)⟩⟩

theorem witness_ResultWordIsInjective : (frameReport .frame 1 3 28 [] 0xDF).pack = 0xDF000000001C030101 := by decide

theorem witness_AssembledEncodeWord :
    (asmEncode 255 (.num 255) [255, 0, 255, 0]).isSome = true ∧ (asmEncode 0 (.num 0) []).isSome = true := by decide

/-- The DECODE of a QUERY after TX_DONE, after an error with a word behind it, and after an error with nothing behind it. -/
theorem witness_QueryDecodesOnlyAfterTxDone :
    asmEncode 1 (.num 28) [] = some 0x000000001C0100 ∧
    (∀ v, Accepting { hostTurn [.afterTxDone (Sys2Proof.encode .decode), .word 0] with sawTxDone := v }) ∧
    nextTurn (hostTurn [.afterTxDone (Sys2Proof.encode .decode), .word 0]) = .host ∧
    presentedCmd (hostTurn [.afterTxDone (Sys2Proof.encode .decode), .word 0]) ≠ none ∧
    presentedCmd (hostTurn [.afterTxDone (Sys2Proof.encode .decode)]) = none :=
  ⟨by decide, fun _ => ⟨rfl, rfl⟩, by decide, by decide, by decide⟩

/-- An idle engine whose result is V-E3's TX_DONE, or a timeout, is a state that the invariant allows. -/
theorem witness_QueryDecodesOnlyAfterTxDone_note :
    Machine.Inv { State.reset with
                  sawTxDone := true, resValid := true, res := frameReport .txDone 1 3 28 [] 0xDF } ∧
    Machine.Inv { State.reset with resValid := true, res := CodecError.timeout.result } :=
  ⟨⟨nofun, rfl, .inl rfl, by decide, by decide, by decide, by decide, fun _ => rfl, fun _ => rfl, nofun, nofun,
      fun h => absurd rfl h, fun _ => ⟨by decide, by decide, by decide, by decide, by decide, by decide, by decide, by decide, by decide, by decide⟩,
      fun h => absurd rfl h, fun _ => rfl⟩,
    ⟨nofun, rfl, .inl rfl, by decide, by decide, by decide, by decide, fun _ => rfl, fun _ => rfl, nofun, nofun,
      fun h => absurd rfl h, fun _ => ⟨by decide, by decide, by decide, by decide, by decide, rfl⟩, fun h => absurd rfl h,
      fun _ => rfl⟩⟩

/-- V-C8: two sequences with the same sum mod 256, a longest and a shortest legal frame, and length bytes 7 and 0. -/
theorem witness_ChecksumIdentities :
    byteSum [0xFF, 0x02] % 256 = byteSum [0x01] % 256 ∧
    ((254 : Byte).toNat ≤ 254 ∧ isValidOpcode 36 = true ∧ ([1, 2, 3, 4] : List Byte).length ≤ 4) ∧
    WellSized 7 [1, 2, 3, 4] ∧ WellSized 0 [] := by
  unfold WellSized
  decide

theorem legalOperands_ends : LegalOperands ⟨4, 254, 255, 255, 255, 255⟩ ∧ LegalOperands ⟨0, 0, 0, 0, 0, 0⟩ := by
  unfold LegalOperands
  decide

theorem witness_EncodeBuildsItsFrame :
    Accepting (hostTurn []) ∧ LegalOperands ⟨4, 254, 255, 255, 255, 255⟩ ∧ isValidOpcode 36 = true ∧ isValidOpcode 1 = true :=
  ⟨accepting_hostTurn _, legalOperands_ends.1, by decide, by decide⟩

/-- Each reason alone: address 255, instruction byte 0, count 5. -/
theorem witness_IllegalEncodeReportsEveryReason :
    Accepting (hostTurn []) ∧
    ∀ w ∈ [(0x0000000001FF00 : CmdWord), 0x00000000000100, 0x0000000001010A],
      cmdOp w = 0 ∧ ¬((cmdAddr w).toNat ≤ 254 ∧ isValidOpcode (cmdInstr w) = true ∧ (cmdNParam w).toNat ≤ 4) :=
  ⟨accepting_hostTurn _, by intro w hw; fin_cases hw <;> decide⟩

/-- First, next to last and last byte of the shortest and of the longest frame, and engines that send nothing. -/
theorem witness_SinkTakesTheByteOnOffer :
    (∀ p ∈ [((6 : BitVec 4), (0 : BitVec 4)), (6, 4), (6, 5), (10, 8), (10, 9)],
      (sendingState p.1 p.2).eng = .encode ∧ (sendingState p.1 p.2).dstate.isReserved = false ∧
        nextTurn (sendingState p.1 p.2) = .txAccept ∧ 6 ≤ p.1.toNat ∧ p.1.toNat ≤ 10 ∧ p.2.toNat < p.1.toNat) ∧
    State.reset.eng ≠ .encode ∧ (readingState .seekMarker1 []).eng ≠ .encode :=
  ⟨by intro p hp; fin_cases hp <;> decide, by decide, by decide⟩

theorem witness_LastByteCompletesTheEncode :
    ∀ p ∈ [((6 : BitVec 4), (5 : BitVec 4)), (7, 6), (10, 9)],
      (sendingState p.1 p.2).eng = .encode ∧ (sendingState p.1 p.2).dstate.isReserved = false ∧
        nextTurn (sendingState p.1 p.2) = .txAccept ∧ 6 ≤ p.1.toNat ∧ p.1.toNat ≤ 10 ∧ p.2.toNat + 1 = p.1.toNat := by
  intro p hp
  fin_cases hp <;> decide

theorem witness_EncodeSendsExactlyItsFrame :
    ∃ s : State, Accepting s ∧ cmdOp 0x00C800C8010108 = 0 ∧ LegalOperands (cmdOperands 0x00C800C8010108) ∧
      isValidOpcode (cmdInstr 0x00C800C8010108) = true ∧ s.hostQueue = [.word 0x00C800C8010108] ∧
      s.schedule = .host :: List.replicate ((cmdNParam 0x00C800C8010108).toNat + 6) .txAccept ++ [] ∧
      9 < (cmdNParam 0x00C800C8010108).toNat + 6 :=
  ⟨{ hostTurn [.word 0x00C800C8010108] with schedule := .host :: List.replicate 10 .txAccept }, ⟨rfl, rfl⟩, by decide,
    by unfold LegalOperands; decide, by decide, rfl, by decide, by decide⟩

/-- Every other turn, while the byte on offer waits. -/
theorem witness_StalledSinkWaits :
    (∀ x ∈ [Turn.wait, .host, .rxDeliver, .timeout, .arrive 1, .present (.word 1)], x ≠ .txAccept ∧ x ≠ .reset) ∧
    ∃ s : State, s.eng = .encode ∧ s.dstate.isReserved = false ∧ s.resValid = false ∧
      s.schedule = [.wait, .host, .rxDeliver, .timeout, .arrive 1, .present (.word 1)] ++ [.txAccept] :=
  ⟨by decide, { sendingState 6 5 with
    hostQueue := [.word 1], rxSource := [0x55]
    schedule := [.wait, .host, .rxDeliver, .timeout, .arrive 1, .present (.word 1), .txAccept] }, by decide⟩

theorem witness_DecodeStartsInMarkerSearch : Accepting (hostTurn [.word 1]) := accepting_hostTurn _

theorem witness_FirstMarkerSearch :
    Delivers (readingState .seekMarker1 [0x55]) .seekMarker1 0x55 [] ∧
      Delivers (readingState .seekMarker1 [0x54, 1]) .seekMarker1 0x54 [1] := by
  unfold Delivers
  decide

theorem witness_SecondMarkerSearch :
    Delivers (readingState .seekMarker2 [0x55]) .seekMarker2 0x55 [] ∧
      Delivers (readingState .seekMarker2 [0x12, 1]) .seekMarker2 0x12 [1] := by
  unfold Delivers
  decide

/-- V-D9. -/
theorem witness_LoneMarkerStealsTheFrame :
    ∃ s : State, s.eng = .decode ∧ s.dstate = .seekMarker1 ∧ s.rxSource = 0x55 :: frame 1 28 [] ++ [] ∧
      s.schedule = List.replicate 4 .rxDeliver ++ [] :=
  ⟨{ readingState .seekMarker1 [0x55, 0x55, 0x55, 0x01, 0x03, 0x1C, 0xDF] with schedule := List.replicate 4 .rxDeliver },
    by decide⟩

/-- Every clause, at length bytes 8, 255, 7, 4, 3 and 0. -/
theorem witness_HeaderAndLengthCheck :
    (∀ h : BitVec 2, Delivers { readingState .readHeader [9] with rxHi := h } .readHeader 9 []) ∧
    (∀ l ∈ [(8 : Byte), 255], 7 < l.toNat ∧ Delivers { readingState .readHeader [9] with rxHi := 2, rxLen := l } .readHeader 9 []) ∧
    (∀ l ∈ [(7 : Byte), 4], l.toNat ≤ 7 ∧ 3 < l.toNat ∧
      Delivers { readingState .readHeader [9] with rxHi := 2, rxLen := l } .readHeader 9 []) ∧
    (∀ l ∈ [(3 : Byte), 0], l.toNat ≤ 3 ∧ Delivers { readingState .readHeader [9] with rxHi := 2, rxLen := l } .readHeader 9 []) := by
  unfold Delivers
  decide

theorem witness_ParameterBytesAreStored :
    ∀ i ∈ [(0 : BitVec 3), 3],
      Delivers { readingState .readParams [9] with rxNp := 4, rxPi := i } .readParams 9 [] ∧ i.toNat < 4 := by
  unfold Delivers
  decide

/-- V-D1 and V-D5 with four parameters, V-D7 with none. -/
theorem witness_ChecksumDecidesTheFrame :
    Delivers (checksumState 0x66) .readChecksum 0x66 [] ∧ (checksumState 0x66).rxNp.toNat ≤ 4 ∧
    0x66 = chk ([(checksumState 0x66).rxAddr, (checksumState 0x66).rxLen, (checksumState 0x66).rxInstr] ++
      (checksumState 0x66).rxP.toList.take 4) ∧
    Delivers (checksumState 0x67) .readChecksum 0x67 [] ∧
    0x67 ≠ chk ([(checksumState 0x67).rxAddr, (checksumState 0x67).rxLen, (checksumState 0x67).rxInstr] ++
      (checksumState 0x67).rxP.toList.take 4) ∧
    Delivers { readingState .readChecksum [0xF9] with rxAddr := 1, rxInstr := 5 } .readChecksum 0xF9 [] ∧
    (0xF9 : Byte) = chk [1, 0, 5] := by
  unfold Delivers
  decide

/-- V-D1 with nine of its bytes read is a state that the invariant allows. -/
theorem inv_checksumState (c : Byte) : Machine.Inv (checksumState c) where
  engLegal := nofun
  dstateLegal := rfl
  txNLegal := .inl rfl
  txILegal := Nat.zero_le _
  rxHiLegal := Nat.le_refl 2
  rxNpLegal := Nat.le_refl 4
  rxPiLegal := Nat.le_refl 4
  decoderRests := fun h => absurd rfl h
  encoderRests := fun _ => rfl
  sending := nofun
  reading := fun _ => ⟨Nat.le_refl 7, rfl, rfl⟩
  busyNoResult := fun _ => rfl
  resultSound := nofun
  noteWhileBusy := fun _ => rfl
  noteOfResult := nofun

/-- The same frame with its last parameter byte still to come, and with its last header byte still to come. -/
theorem witness_ReadCallIsAlwaysOutstanding :
    Machine.Inv (checksumState 0x66) ∧ (checksumState 0x66).eng = .decode ∧
    Machine.Inv { readingState .readParams [0] with rxLen := 7, rxNp := 4, rxPi := 3 } ∧
    Machine.Inv { readingState .readHeader [1] with rxHi := 2 } :=
  ⟨inv_checksumState _, rfl,
    ⟨nofun, rfl, .inl rfl, by decide, by decide, by decide, by decide, fun h => absurd rfl h, fun _ => rfl, nofun,
      fun _ => ⟨by decide, by decide, by decide⟩, fun _ => rfl, nofun, fun _ => rfl, nofun⟩,
    ⟨nofun, rfl, .inl rfl, by decide, by decide, by decide, by decide, fun h => absurd rfl h, fun _ => rfl, nofun,
      fun _ => ⟨by decide, rfl, rfl⟩, fun _ => rfl, nofun, fun _ => rfl, nofun⟩⟩

/-- A timeout in each state of the decoder, and while no DECODE is in progress. -/
theorem witness_TimeoutEndsTheDecode :
    (∀ d ∈ [DState.seekMarker1, .seekMarker2, .readHeader, .readParams, .readChecksum],
      ({ readingState d [1] with schedule := [.timeout] } : State).eng = .decode ∧ d.isReserved = false ∧
        nextTurn { readingState d [1] with schedule := [.timeout] } = .timeout) ∧
    State.reset.eng ≠ .decode ∧ (sendingState 6 0).eng ≠ .decode := by decide

theorem witness_NoiseKeepsTheDecodeAlive :
    ∃ s : State, (∀ b ∈ ([0x00, 0xAA, 0xFF] : List Byte), b ≠ 0x55) ∧ s.eng = .decode ∧ s.dstate = .seekMarker1 ∧
      s.rxSource = [0x00, 0xAA, 0xFF] ++ [0x55] ∧ s.schedule = List.replicate 3 .rxDeliver ++ [.timeout] :=
  ⟨{ readingState .seekMarker1 [0x00, 0xAA, 0xFF, 0x55] with
      schedule := [.rxDeliver, .rxDeliver, .rxDeliver, .timeout] }, by decide⟩

/-- V-S3, second row: every byte of the frame that can be the marker is one. -/
theorem witness_DecodeReturnsAnEncodedFrame :
    ∃ s : State, (0x55 : Byte).toNat ≤ 254 ∧ isValidOpcode 1 = true ∧ ([0x55, 0x55, 0x55, 0x55] : List Byte).length ≤ 4 ∧
      s.eng = .decode ∧ s.dstate = .seekMarker1 ∧ s.rxSource = frame 0x55 1 [0x55, 0x55, 0x55, 0x55] ++ [7] ∧
      s.schedule = List.replicate 10 .rxDeliver ++ [] :=
  ⟨{ readingState .seekMarker1 [0x55, 0x55, 0x55, 0x07, 0x01, 0x55, 0x55, 0x55, 0x55, 0x4E, 0x07] with
      schedule := List.replicate 10 .rxDeliver }, by decide⟩

/-- V-D2, and V-D4's broken marker pair. -/
theorem witness_DecodeResynchronizes :
    (∃ s : State, (∀ b ∈ ([0x00, 0xAA, 0x13] : List Byte), b ≠ 0x55) ∧ WellSized 7 [200, 0, 200, 0] ∧ s.eng = .decode ∧
      s.dstate = .seekMarker1 ∧ s.rxSource = [0x00, 0xAA, 0x13] ++ wireFrame 1 7 1 [200, 0, 200, 0] ++ [] ∧
      s.schedule = List.replicate 13 .rxDeliver ++ []) ∧
    (∃ t, step (readingState .seekMarker2 [0x12]) = .next t ∧ nextTurn (readingState .seekMarker2 [0x12]) = .rxDeliver ∧
      t.dstate = .seekMarker1) := by
  refine ⟨⟨{ readingState .seekMarker1 [0x00, 0xAA, 0x13, 0x55, 0x55, 0x01, 0x07, 0x01, 0xC8, 0x00, 0xC8, 0x00, 0x66] with
      schedule := List.replicate 13 .rxDeliver }, ?_⟩, ⟨_, rfl, by decide, by decide⟩⟩
  unfold WellSized
  decide

/-- V-S5 with bit 7 flipped, and a second frame whose length byte is 0 (V-D7). -/
theorem witness_FlippedChecksumBitDropsTheFrame :
    ∃ s : State, WellSized 7 [200, 0, 200, 0] ∧ WellSized 0 [] ∧ s.eng = .decode ∧ s.dstate = .seekMarker1 ∧
      s.rxSource = [0x55, 0x55, 1, 7, 1] ++ [200, 0, 200, 0] ++ [chk ([1, 7, 1] ++ [200, 0, 200, 0]) ^^^ BitVec.twoPow 8 7] ++
        wireFrame 1 0 5 [] ++ [] ∧
      s.schedule = List.replicate 16 .rxDeliver ++ [] := by
  refine ⟨{ readingState .seekMarker1 ([0x55, 0x55, 0x01, 0x07, 0x01, 0xC8, 0x00, 0xC8, 0x00, 0xE6] ++
      [0x55, 0x55, 0x01, 0x00, 0x05, 0xF9]) with schedule := List.replicate 16 .rxDeliver }, ?_⟩
  unfold WellSized
  decide

/-- A word of each row, and legal operands at the ends of their ranges. -/
theorem witness_MoveAndIdCommands :
    (∀ v ∈ ([1, 2, 7, 8, 11, 12, 13, 14] : List Byte),
      cmdOp (packEncode v operands4) = 0 ∧ cmdInstr (packEncode v operands4) = v) ∧
    Accepting (hostTurn []) ∧ LegalOperands ⟨4, 254, 255, 255, 255, 255⟩ :=
  ⟨by decide, accepting_hostTurn _, legalOperands_ends.1⟩

theorem witness_OffsetAndLimitCommands :
    (∀ v ∈ ([17, 18, 19, 20, 21, 22, 23, 24, 25] : List Byte),
      cmdOp (packEncode v operands4) = 0 ∧ cmdInstr (packEncode v operands4) = v) ∧
    Accepting (hostTurn []) ∧ LegalOperands ⟨0, 0, 0, 0, 0, 0⟩ :=
  ⟨by decide, accepting_hostTurn _, legalOperands_ends.2⟩

theorem witness_ReadingModeLoadAndLedCommands :
    (∀ v ∈ ([26, 27, 28, 29, 30, 31, 32, 33, 34, 35, 36] : List Byte),
      cmdOp (packEncode v operands4) = 0 ∧ cmdInstr (packEncode v operands4) = v) ∧
    Accepting (hostTurn []) ∧ LegalOperands ⟨4, 254, 255, 255, 255, 255⟩ :=
  ⟨by decide, accepting_hostTurn _, legalOperands_ends.1⟩

/-- V-E19, V-E20. -/
theorem witness_OtherInstructionBytesAreIllegal :
    Accepting (hostTurn []) ∧
    ∀ w ∈ [(0x00000000030100 : CmdWord), 0x00000000250100, 0x00000000000100],
      cmdOp w = 0 ∧ isValidOpcode (cmdInstr w) = false :=
  ⟨accepting_hostTurn _, by intro w hw; fin_cases hw <;> decide⟩

/-- A started ENCODE, a failed one and a DECODE. -/
theorem witness_AcceptanceFrame :
    (∃ t, exec (.move operands4) (hostTurn []) = .next t ∧ t.eng = .encode) ∧
    (∃ t, exec (.encode operands4 3) (hostTurn []) = .next t ∧ t.eng = .idle) ∧
    (∃ t, exec .decode (hostTurn []) = .next t ∧ t.eng = .decode) :=
  ⟨⟨_, rfl, by decide⟩, ⟨_, rfl, by decide⟩, ⟨_, rfl, by decide⟩⟩

theorem witness_ByteEventFrame :
    (∃ t, step (sendingState 10 9) = .next t ∧ nextTurn (sendingState 10 9) = .txAccept) ∧
    (∃ t, step (checksumState 0x66) = .next t ∧ nextTurn (checksumState 0x66) = .rxDeliver) ∧
    (∃ t, step { checksumState 0x66 with schedule := [.timeout] } = .next t ∧
      nextTurn { checksumState 0x66 with schedule := [.timeout] } = .timeout) :=
  ⟨⟨_, rfl, by decide⟩, ⟨_, rfl, by decide⟩, ⟨_, rfl, by decide⟩⟩

/-- Each turn in a state that enables no event for it (V-H7, V-H8). -/
theorem witness_TurnsWithoutAnEventPass :
    (nextTurn (hostTurn []) = .host ∧ presentedCmd (hostTurn []) = none) ∧
    (nextTurn { sendingState 6 0 with schedule := [.host] } = .host ∧ (sendingState 6 0).eng ≠ .idle) ∧
    (nextTurn { State.reset with schedule := [.txAccept] } = .txAccept ∧ State.reset.eng ≠ .encode) ∧
    (nextTurn { State.reset with schedule := [.rxDeliver], rxSource := [0x55] } = .rxDeliver ∧ State.reset.eng ≠ .decode) ∧
    (nextTurn (readingState .readHeader []) = .rxDeliver ∧ (readingState .readHeader []).rxSource = []) ∧
    (nextTurn { sendingState 6 0 with schedule := [.timeout] } = .timeout ∧ (sendingState 6 0).eng ≠ .decode) ∧
    nextTurn { State.reset with schedule := [.wait] } = .wait ∧
    nextTurn { State.reset with schedule := [.arrive 0x55] } = .arrive 0x55 ∧
    nextTurn { State.reset with schedule := [.present (.word 1)] } = .present (.word 1) ∧
    State.reset.dstate.isReserved = false := by decide

/-- V-D5: the wrong checksum byte. -/
theorem witness_DiscardIsInvisible :
    ∃ t, step (checksumState 0x67) = .next t ∧ nextTurn (checksumState 0x67) = .rxDeliver ∧ t.eng = .decode :=
  ⟨_, rfl, by decide, by decide⟩

theorem witness_OperationsEndOnlyByTheirOwnEnd :
    (∃ t, step (checksumState 0x66) = .next t ∧ (checksumState 0x66).eng = .decode ∧ t.eng = .idle) ∧
    (∃ t, step (sendingState 10 9) = .next t ∧ (sendingState 10 9).eng = .encode ∧ t.eng = .idle) :=
  ⟨⟨_, rfl, by decide, by decide⟩, ⟨_, rfl, by decide, by decide⟩⟩

/-- An idle engine is a state that the invariant allows, whatever the environment holds. -/
theorem inv_hostTurn (q : List HostItem) (ts : List Turn) : Machine.Inv { hostTurn q with schedule := ts } :=
  ⟨nofun, rfl, .inl rfl, Nat.zero_le _, Nat.zero_le _, Nat.zero_le _, Nat.zero_le _, fun _ => rfl, fun _ => rfl, nofun, nofun,
    fun h => absurd rfl h, nofun, fun h => absurd rfl h, nofun⟩

/-- P3's first two commands, and a command after a timeout. -/
theorem witness_EngineGoesOnAfterAnError :
    (∃ s t : State, Machine.Inv s ∧ step s = .next t ∧ t.resValid = true ∧ t.res.kind = .encodingError ∧
      nextTurn t = .host ∧ presentedCmd t = some 0x0000000000FF0A) ∧
    (∃ s t : State, Machine.Inv s ∧ step s = .next t ∧ t.resValid = true ∧ t.res.kind = .timeout) :=
  ⟨⟨{ hostTurn [.word 0x000000000CFF00, .word 0x0000000000FF0A] with schedule := [.host, .host] }, _, inv_hostTurn _ _, rfl,
      by decide⟩,
    ⟨{ checksumState 0x66 with schedule := [.timeout] }, _,
      ⟨nofun, rfl, .inl rfl, by decide, by decide, by decide, by decide, fun h => absurd rfl h, fun _ => rfl, nofun,
        fun _ => ⟨by decide, by decide, by decide⟩, fun _ => rfl, nofun, fun _ => rfl, nofun⟩, rfl, by decide⟩⟩

/-- Reset while sending, and with a word on the port afterwards (V-H6, P6). -/
theorem witness_ResetEvent :
    nextTurn { sendingState 10 4 with schedule := [.reset] } = .reset ∧
    (sendingState 10 4).eng ≠ .reserved ∧ (sendingState 10 4).dstate.isReserved = false ∧
    ∃ t, step { sendingState 10 4 with schedule := [.reset, .host], hostQueue := [.word 0x000000000C0100] } = .next t ∧
      nextTurn t = .host ∧ presentedCmd t = some 0x000000000C0100 :=
  ⟨by decide, by decide, by decide, _, rfl, by decide, by decide⟩

theorem witness_StepKeepsTheInvariant :
    Machine.Inv (checksumState 0x66) ∧ ∃ t, step (checksumState 0x66) = .next t :=
  ⟨inv_checksumState _, _, rfl⟩

theorem witness_NoRunStops : Machine.Inv (checksumState 0x66) := inv_checksumState _

end Sys2Proof.Tests
end

section
/-! PROOFS. When an agent's turn is no event of the block (R12), and what such a turn does (log entry 2). -/

namespace Sys2Proof.Machine

/-! ### Where no rule enables the event of a turn (R12) -/

theorem enabledEvent_host_eq_none {s : State} (h : s.eng ≠ .idle ∨ presentedCmd s = none) :
    enabledEvent .host s = none := by
  rcases h with h | h <;> simp [enabledEvent, h]

theorem enabledEvent_txAccept_eq_none {s : State} (h : s.eng ≠ .encode) : enabledEvent .txAccept s = none := by
  simp [enabledEvent, h]

theorem enabledEvent_rxDeliver_eq_none {s : State} (h : s.eng ≠ .decode ∨ s.rxSource = []) :
    enabledEvent .rxDeliver s = none := by
  rcases h with h | h <;> simp [enabledEvent, h]

theorem enabledEvent_timeout_eq_none {s : State} (h : s.eng ≠ .decode) : enabledEvent .timeout s = none := by
  simp [enabledEvent, h]

/-- `step_noEvent` for a turn that is known: the form in which `enabledEvent` and `environmentMove` compute. -/
theorem step_of_noEvent {s : State} {t : Turn} (he : s.eng ≠ .reserved) (hd : s.dstate.isReserved = false)
    (ht : nextTurn s = t) (hn : enabledEvent t (popTurn s) = none) :
    step s = .next (environmentMove t (popTurn s)) := by
  subst ht
  exact step_noEvent he hd hn

end Sys2Proof.Machine

namespace Sys2Proof.Claims
open Sys2Proof.Machine

/-- Settles O51: in each clause the turn enables no event (R12), so the step is the environment's move of that turn
(`step_of_noEvent`), which for the first five turns is nothing. -/
theorem turnsWithoutAnEventPass : Obligations.TurnsWithoutAnEventPass := by
  intro s he hd
  refine ⟨?host, ?txAccept, ?rxDeliver, ?timeout, ?wait, ?arrive, ?present⟩
  case host =>
    intro ht h
    exact step_of_noEvent he hd ht (enabledEvent_host_eq_none (by simpa using h))
  case txAccept =>
    intro ht h
    exact step_of_noEvent he hd ht (enabledEvent_txAccept_eq_none (by simpa using h))
  case rxDeliver =>
    intro ht h
    exact step_of_noEvent he hd ht (enabledEvent_rxDeliver_eq_none (by simpa using h))
  case timeout =>
    intro ht h
    exact step_of_noEvent he hd ht (enabledEvent_timeout_eq_none (by simpa using h))
  case wait =>
    intro ht
    exact step_of_noEvent he hd ht rfl
  case arrive =>
    intro b ht
    simpa [environmentMove] using step_of_noEvent he hd ht rfl
  case present =>
    intro i ht
    simpa [environmentMove] using step_of_noEvent he hd ht rfl

end Sys2Proof.Claims
end

section
/-! PROOFS. The transmit buffer after a frame is written (R18), and the results that report a frame (R49). -/

namespace Sys2Proof.Machine

/-! ### The transmit buffer (R18) -/

/-- Byte `j` of the written buffer is byte `j` of the frame where there is one, and the old byte elsewhere. -/
theorem writeFrame_toList (buf : Vector Byte 10) (f : List Byte) (h : f.length ≤ 10) :
    (writeFrame buf f).toList = f ++ buf.toList.drop f.length := by
  apply List.ext_getElem
  · simp
    omega
  · intro j hj _
    have hj : j < 10 := by simpa using hj
    by_cases hf : j < f.length
    · simp [writeFrame, List.getElem_append_left, hf]
    · rw [List.getElem_append_right (by omega)]
      simp [writeFrame, hf, show f.length + (j - f.length) = j by omega]

/-- A byte of `TXBUF` below `TX_N` is the byte of the frame that stands there. -/
theorem txByte_of_take {s : State} {n j : Nat} {f : List Byte} (h : s.txBuf.toList.take n = f) (hj : j < n) :
    txByte s j = f[j]?.getD 0 := by
  subst h
  simp [txByte, hj]

/-! ### The parameter bytes of a result (R49) -/

theorem paramOrZero_eq_getD_take (bytes : List Byte) (n j : Nat) :
    paramOrZero bytes n j = (bytes.take n)[j]?.getD 0 := by
  by_cases h : j < n <;> simp [paramOrZero, h]

theorem frameReport_params (k : Kind) (a l i c : Byte) {ps : List Byte} (h : ps.length ≤ 4) :
    (Claims.frameReport k a l i ps c).params = ps :=
  match ps, h with
  | [], _ | [_], _ | [_, _], _ | [_, _, _], _ | [_, _, _, _], _ => rfl

theorem frameReport_rnp (k : Kind) (a l i c : Byte) {ps : List Byte} (h : ps.length ≤ 4) :
    (Claims.frameReport k a l i ps c).rnp.toNat = ps.length :=
  Nat.mod_eq_of_lt (by omega : ps.length < 2 ^ 3)

/-- A list has no byte from its length on, so 0 stands for it (R49). -/
theorem getD_getElem?_of_length_le {ps : List Byte} {j : Nat} (h : ps.length ≤ j) : ps[j]?.getD 0 = 0 := by
  simp [h]

/-- A TX_DONE of a legal frame with the right length and checksum is a result that R49 allows. -/
theorem frameReport_txDone_sound {a i : Byte} {ps : List Byte} (ha : a.toNat ≤ Config.maxAddr)
    (hi : isValidOpcode i = true) (hps : ps.length ≤ 4) :
    (Claims.frameReport .txDone a (BitVec.ofNat 8 (Config.lenBias + ps.length)) i ps (chk (frameBody a i ps))).Sound := by
  unfold Result.Sound
  rw [frameReport_params _ _ _ _ _ hps, frameReport_rnp _ _ _ _ _ hps]
  refine ⟨hps, getD_getElem?_of_length_le, getD_getElem?_of_length_le, getD_getElem?_of_length_le,
    getD_getElem?_of_length_le, rfl, ha, hi, ?_, rfl⟩
  exact Nat.mod_eq_of_lt (by simp [Config.lenBias]; omega : Config.lenBias + ps.length < 2 ^ 8)

/-- So is a FRAME whose length byte the decoder accepts. -/
theorem frameReport_frame_sound {a l i : Byte} {ps : List Byte} (hl : WellSized l ps) :
    (Claims.frameReport .frame a l i ps (chk ([a, l, i] ++ ps))).Sound := by
  obtain ⟨hl, hps⟩ := hl
  have hps' : ps.length ≤ 4 := by simp only [Config.maxRxLen, Config.lenBias] at hl hps; omega
  unfold Result.Sound
  rw [frameReport_params _ _ _ _ _ hps', frameReport_rnp _ _ _ _ _ hps']
  exact ⟨hps', getD_getElem?_of_length_le, getD_getElem?_of_length_le, getD_getElem?_of_length_le,
    getD_getElem?_of_length_le, rfl, hl, hps, rfl⟩

theorem codecError_result_sound {e : CodecError} (h : e ≠ .encodingError 0) : e.result.Sound := by
  cases e with
  | timeout => simp [CodecError.result, Result.Sound, Result.zero]
  | encodingError r => simpa [CodecError.result, Result.Sound, Result.zero] using h

/-! ### What a completed operation reports (R60, R72) -/

/-- The TX_DONE of a whole frame in `TXBUF` reports that frame (R60). -/
theorem txDoneResult_of_frame {s : State} {a i : Byte} {ps : List Byte} (hn : s.txN.toNat = ps.length + 6)
    (hb : s.txBuf.toList.take s.txN.toNat = frame a i ps) :
    txDoneResult s =
      Claims.frameReport .txDone a (BitVec.ofNat 8 (Config.lenBias + ps.length)) i ps (chk (frameBody a i ps)) := by
  have hbyte {j : Nat} (hj : j < ps.length + 6) : txByte s j = (frame a i ps)[j]?.getD 0 := txByte_of_take hb (by omega)
  have haddr : txByte s 2 = a := hbyte (by omega)
  have hlen : txByte s 3 = BitVec.ofNat 8 (Config.lenBias + ps.length) := hbyte (by omega)
  have hinstr : txByte s 4 = i := hbyte (by omega)
  have hchk : txByte s (ps.length + 5) = chk (frameBody a i ps) := by
    rw [hbyte (by omega)]
    simp [frame, frameBody]
  have hps : (s.txBuf.toList.drop 5).take ps.length = ps := by
    have hbody : s.txBuf.toList.take (5 + ps.length) = (frame a i ps).take (5 + ps.length) := by
      rw [← hb, List.take_take, show min (5 + ps.length) s.txN.toNat = 5 + ps.length by omega]
    rw [List.take_drop, hbody]
    simp [frame, frameBody, Nat.add_comm 5]
  simp [txDoneResult, Claims.frameReport, hn, paramOrZero_eq_getD_take, hps, haddr, hlen, hinstr, hchk]

/-- The FRAME of a DECODE reports the captured header and the parameters captured so far (R72). -/
theorem frameResult_eq_frameReport (c : Byte) {s : State} (h : s.rxNp.toNat ≤ 4) :
    frameResult c s =
      Claims.frameReport .frame s.rxAddr s.rxLen s.rxInstr (s.rxP.toList.take s.rxNp.toNat) c := by
  simp [frameResult, Claims.frameReport, paramOrZero_eq_getD_take, h]

end Sys2Proof.Machine

namespace Sys2Proof.Claims
open Sys2Proof.Machine

/-- Settles O4: the byte of the written buffer at each index, inside the frame and after it. -/
theorem frameWriteKeepsLaterBytes : Obligations.FrameWriteKeepsLaterBytes := writeFrame_toList

end Sys2Proof.Claims
end

section
/-! PROOFS. The invariant: every step keeps it, one lemma per event (R15 to R21, R49). -/

namespace Sys2Proof.Machine

/-! ### States that meet the invariant -/

/-- `TX_N` is 0 or the length of a frame (R15). -/
def TxNInRange (s : State) : Prop := s.txN = 0 ∨ (6 ≤ s.txN.toNat ∧ s.txN.toNat ≤ 10)

/-- The capture counters are in R15's ranges. -/
def CaptureInRange (s : State) : Prop := s.rxHi.toNat ≤ 2 ∧ s.rxNp.toNat ≤ 4 ∧ s.rxPi.toNat ≤ 4

theorem Inv.captureInRange {s : State} (h : Inv s) : CaptureInRange s := ⟨h.rxHiLegal, h.rxNpLegal, h.rxPiLegal⟩

/-- The host's note and the valid result agree, and the result is one that R49 allows. -/
def ResultAgrees (s : State) : Prop := s.res.Sound ∧ s.sawTxDone = (s.res.kind == .txDone)

/-- An idle engine meets the invariant when both operations are at rest and its result, if valid, is sound. -/
theorem inv_of_idle {s : State} (he : s.eng = .idle) (hd : s.dstate = .seekMarker1) (hi : s.txI = 0)
    (htx : TxNInRange s) (hc : CaptureInRange s) (hr : s.resValid = true → ResultAgrees s) : Inv s := by
  obtain ⟨hhi, hnp, hpi⟩ := hc
  exact {
    engLegal := by simp [he]
    dstateLegal := by simp [hd, DState.isReserved]
    txNLegal := htx
    txILegal := by simp [hi]
    rxHiLegal := hhi
    rxNpLegal := hnp
    rxPiLegal := hpi
    decoderRests := fun _ => hd
    encoderRests := fun _ => hi
    sending := by simp [he]
    reading := by simp [he]
    busyNoResult := fun h => absurd he h
    resultSound := fun h => (hr h).1
    noteWhileBusy := fun h => absurd he h
    noteOfResult := fun h => (hr h).2 }

/-- While a frame is sent, `TX_N` is the length of a frame and `TX_I` points into it (R15). -/
theorem SendingFrame.counters {s : State} (h : SendingFrame s) :
    6 ≤ s.txN.toNat ∧ s.txN.toNat ≤ 10 ∧ s.txI.toNat ≤ 9 := by
  obtain ⟨_, _, ps, _, _, hps, hn, _, hi⟩ := h
  simp only [Config.maxParams] at hps
  omega

/-- An ENCODE in progress meets the invariant while it sends a frame and the decoder rests. -/
theorem inv_of_encode {s : State} (he : s.eng = .encode) (hd : s.dstate = .seekMarker1) (hc : CaptureInRange s)
    (hs : SendingFrame s) (hv : s.resValid = false) (hn : s.sawTxDone = false) : Inv s := by
  obtain ⟨hhi, hnp, hpi⟩ := hc
  obtain ⟨hn6, hn10, hi⟩ := hs.counters
  exact {
    engLegal := by simp [he]
    dstateLegal := by simp [hd, DState.isReserved]
    txNLegal := .inr ⟨hn6, hn10⟩
    txILegal := hi
    rxHiLegal := hhi
    rxNpLegal := hnp
    rxPiLegal := hpi
    decoderRests := fun _ => hd
    encoderRests := fun h => absurd he h
    sending := fun _ => hs
    reading := by simp [he]
    busyNoResult := fun _ => hv
    resultSound := by simp [hv]
    noteWhileBusy := fun _ => hn
    noteOfResult := by simp [hv] }

theorem captureAgrees_readHeader_iff {s : State} (hd : s.dstate = .readHeader) :
    CaptureAgrees s ↔ s.rxHi.toNat ≤ 2 ∧ s.rxNp = 0 ∧ s.rxPi = 0 := by
  simp only [CaptureAgrees, hd]

theorem captureAgrees_readParams_iff {s : State} (hd : s.dstate = .readParams) :
    CaptureAgrees s ↔ s.rxLen.toNat ≤ Config.maxRxLen ∧ s.rxNp.toNat = s.rxLen.toNat - Config.lenBias ∧
      s.rxPi.toNat < s.rxNp.toNat := by
  simp only [CaptureAgrees, hd]

theorem captureAgrees_readChecksum_iff {s : State} (hd : s.dstate = .readChecksum) :
    CaptureAgrees s ↔ s.rxLen.toNat ≤ Config.maxRxLen ∧ s.rxNp.toNat = s.rxLen.toNat - Config.lenBias ∧
      s.rxPi = s.rxNp := by
  simp only [CaptureAgrees, hd]

theorem CaptureAgrees.not_isReserved {s : State} (h : CaptureAgrees s) : s.dstate.isReserved = false := by
  cases hd : s.dstate <;> simp [CaptureAgrees, hd] at h <;> rfl

/-- A DECODE in progress meets the invariant while its capture counters agree with the decoder and no byte is pending. -/
theorem inv_of_decode {s : State} (he : s.eng = .decode) (hi : s.txI = 0) (htx : TxNInRange s)
    (hc : CaptureInRange s) (hs : CaptureAgrees s) (hv : s.resValid = false) (hn : s.sawTxDone = false) : Inv s := by
  obtain ⟨hhi, hnp, hpi⟩ := hc
  exact {
    engLegal := by simp [he]
    dstateLegal := hs.not_isReserved
    txNLegal := htx
    txILegal := by simp [hi]
    rxHiLegal := hhi
    rxNpLegal := hnp
    rxPiLegal := hpi
    decoderRests := fun h => absurd he h
    encoderRests := fun _ => hi
    sending := by simp [he]
    reading := fun _ => hs
    busyNoResult := fun _ => hv
    resultSound := by simp [hv]
    noteWhileBusy := fun _ => hn
    noteOfResult := by simp [hv] }

/-! ### The environment -/

/-- The invariant speaks of the block and of the host's note alone. -/
theorem Inv.of_sameBlock {s t : State} (h : Inv s) (hb : Claims.SameBlock s t) (hn : t.sawTxDone = s.sawTxDone) :
    Inv t := by
  rw [hb, hn]
  exact ⟨h.engLegal, h.dstateLegal, h.txNLegal, h.txILegal, h.rxHiLegal, h.rxNpLegal, h.rxPiLegal, h.decoderRests,
    h.encoderRests, h.sending, h.reading, h.busyNoResult, h.resultSound, h.noteWhileBusy, h.noteOfResult⟩

theorem sameBlock_popTurn (s : State) : Claims.SameBlock s (popTurn s) := by
  unfold popTurn
  split <;> rfl

theorem sameBlock_environmentMove (t : Turn) (s : State) : Claims.SameBlock s (environmentMove t s) := by
  cases t <;> rfl

theorem environmentMove_sawTxDone (t : Turn) (s : State) : (environmentMove t s).sawTxDone = s.sawTxDone := by
  cases t <;> rfl

theorem Inv.after_popTurn {s : State} (h : Inv s) : Inv (popTurn s) :=
  h.of_sameBlock (sameBlock_popTurn s) (popTurn_sawTxDone s)

theorem Inv.after_consume {s : State} (h : Inv s) : Inv (consume s) := h.of_sameBlock rfl rfl

theorem Inv.after_environmentMove {s : State} (t : Turn) (h : Inv s) : Inv (environmentMove t s) :=
  h.of_sameBlock (sameBlock_environmentMove t s) (environmentMove_sawTxDone t s)

/-! ### Reset and acceptance -/

theorem inv_resetBlock (s : State) : Inv (resetBlock s) :=
  inv_of_idle rfl rfl rfl (.inl rfl) (by simp [CaptureInRange, State.reset]) (by simp [State.reset])

/-- The frame that an accepted ENCODE writes is a whole legal frame with its first byte on offer (R57). -/
theorem sendingFrame_writeFrame {v : Byte} {o : EncOperands} (s : State) (h : encodeCheck o.addr v o.nparam = 0) :
    SendingFrame { s with
      txBuf := writeFrame s.txBuf (frame o.addr v (params o)), txN := BitVec.ofNat 4 (o.nparam.toNat + 6), txI := 0
      eng := .encode } := by
  obtain ⟨ha, hv, hn⟩ := (encodeCheck_eq_zero_iff _ _ _).1 h
  have hlen := params_length o hn
  have htx : (BitVec.ofNat 4 (o.nparam.toNat + 6)).toNat = (params o).length + 6 := by
    rw [hlen]
    exact Nat.mod_eq_of_lt (by omega : o.nparam.toNat + 6 < 2 ^ 4)
  refine ⟨o.addr, v, params o, ha, hv, params_length_le o, htx, ?_, ?_⟩
  · rw [htx, writeFrame_toList _ _ (by simp; omega)]
    exact List.take_left' (by simp)
  · rw [htx]
    simp

/-- Every instruction keeps the invariant at acceptance (R45). -/
theorem Inv.after_exec {i : Instr} {s t : State} (h : Inv s) (ht : exec i s = .next t) : Inv t := by
  obtain ⟨-, -, ⟨-, rfl⟩ | ⟨he, -, rfl⟩ | ⟨he, -, v, o, hc, rfl⟩ | ⟨he, -, r, hr, rfl⟩⟩ := exec_next ht
  · exact h
  all_goals
    have hi : s.txI = 0 := h.encoderRests (by simp [he])
    have hd : s.dstate = .seekMarker1 := h.decoderRests (by simp [he])
  · exact inv_of_decode rfl hi h.txNLegal (by simp [CaptureInRange]) trivial rfl rfl
  · exact inv_of_encode rfl hd h.captureInRange (sendingFrame_writeFrame (takeCmd s) hc) rfl rfl
  · exact inv_of_idle rfl hd hi h.txNLegal h.captureInRange fun _ => ⟨codecError_result_sound (by simpa using hr), rfl⟩

/-! ### One byte sent -/

/-- A byte that is accepted keeps the invariant: the same frame goes on, or it is reported (R59, R60). -/
theorem Inv.after_txAccept {s t : State} (h : Inv s) (he : s.eng = .encode) (ht : txAccept s = .next t) : Inv t := by
  have hd : s.dstate = .seekMarker1 := h.decoderRests (by simp [he])
  obtain ⟨a, i, ps, ha, hi, hps, hn, hb, hlt⟩ := h.sending he
  obtain ⟨-, -, -, ⟨hmore, rfl⟩ | ⟨-, rfl⟩⟩ := txAccept_next ht
  · have hnext : (s.txI + 1).toNat = s.txI.toNat + 1 := Nat.mod_eq_of_lt (by omega : s.txI.toNat + 1 < 2 ^ 4)
    exact inv_of_encode he hd h.captureInRange ⟨a, i, ps, ha, hi, hps, hn, hb, by simpa only [hnext] using hmore⟩
      (h.busyNoResult (by simp [he])) (h.noteWhileBusy (by simp [he]))
  · refine inv_of_idle rfl hd rfl h.txNLegal h.captureInRange fun _ => ?_
    simp only [ResultAgrees, txDoneResult_of_frame hn hb]
    exact ⟨frameReport_txDone_sound ha hi hps, rfl⟩

/-! ### One byte received -/

/-- The capture registers as a DECODE in progress has them: counters in range, and in agreement with the decoder. -/
def CaptureLegal (s : State) : Prop := CaptureInRange s ∧ CaptureAgrees s

theorem CaptureLegal.seek {s : State} (h : CaptureInRange s) : CaptureLegal { s with dstate := .seekMarker1 } :=
  ⟨h, trivial⟩

theorem CaptureLegal.after_rxSeekMarker1 {s : State} (b : Byte) (h : CaptureLegal s) :
    CaptureLegal (rxSeekMarker1 b s) := by
  unfold rxSeekMarker1
  split
  · exact ⟨h.1, trivial⟩
  · exact h

theorem CaptureLegal.after_rxSeekMarker2 {s : State} (b : Byte) (h : CaptureInRange s) :
    CaptureLegal (rxSeekMarker2 b s) := by
  unfold rxSeekMarker2
  split
  · simp [CaptureLegal, CaptureInRange, CaptureAgrees]
  · exact .seek h

/-- The length check sets the counters that the parameters and the checksum need (R69, R70). -/
theorem CaptureLegal.after_lengthCheck {s : State} (h : CaptureInRange s) : CaptureLegal (lengthCheck s) := by
  unfold lengthCheck
  split
  · exact .seek h
  · have hlen : s.rxLen.toNat ≤ Config.maxRxLen := by omega
    have hn4 : s.rxLen.toNat - Config.lenBias ≤ 4 := by simp only [Config.maxRxLen, Config.lenBias] at hlen ⊢; omega
    have hnp : (BitVec.ofNat 3 (s.rxLen.toNat - Config.lenBias)).toNat = s.rxLen.toNat - Config.lenBias :=
      Nat.mod_eq_of_lt (by omega : _ < 2 ^ 3)
    have hr : CaptureInRange { s with rxNp := BitVec.ofNat 3 (s.rxLen.toNat - Config.lenBias), rxPi := 0 } :=
      ⟨h.1, hnp.trans_le hn4, by simp⟩
    dsimp only
    split
    next hpos => exact ⟨hr, hlen, hnp, hpos.trans_eq hnp.symm⟩
    next hzero => exact ⟨hr, hlen, hnp, by simp [Nat.eq_zero_of_not_pos hzero]⟩

theorem CaptureLegal.after_rxReadHeader {b : Byte} {s t : State} (hd : s.dstate = .readHeader) (h : CaptureLegal s)
    (ht : rxReadHeader b s = .next t) : CaptureLegal t := by
  obtain ⟨hr, ha⟩ := h
  obtain ⟨-, hnp, hpi⟩ := (captureAgrees_readHeader_iff hd).1 ha
  unfold rxReadHeader at ht
  split at ht <;> cases ht
  · simp [CaptureLegal, CaptureInRange, CaptureAgrees, hd, hnp, hpi]
  · simp [CaptureLegal, CaptureInRange, CaptureAgrees, hd, hnp, hpi]
  · exact .after_lengthCheck hr

theorem CaptureLegal.after_rxReadParams {b : Byte} {s t : State} (hd : s.dstate = .readParams) (h : CaptureLegal s)
    (ht : rxReadParams b s = .next t) : CaptureLegal t := by
  obtain ⟨⟨hhi, hnp, -⟩, ha⟩ := h
  obtain ⟨hlen, hnpLen, hlt⟩ := (captureAgrees_readParams_iff hd).1 ha
  have hnext : (s.rxPi + 1).toNat = s.rxPi.toNat + 1 := Nat.mod_eq_of_lt (by omega : s.rxPi.toNat + 1 < 2 ^ 3)
  have hpi : (s.rxPi + 1).toNat ≤ 4 := by omega
  unfold rxReadParams at ht
  split at ht
  · cases ht
  · dsimp only at ht
    split at ht <;> cases ht
    next hlast =>
      have hall : s.rxPi + 1 = s.rxNp := BitVec.eq_of_toNat_eq (hnext.trans hlast)
      exact ⟨⟨hhi, hnp, hpi⟩, hlen, hnpLen, hall⟩
    next hmore =>
      have hlt' : (s.rxPi + 1).toNat < s.rxNp.toNat := by omega
      exact ⟨⟨hhi, hnp, hpi⟩, (captureAgrees_readParams_iff (by simpa using hd)).2 ⟨hlen, hnpLen, hlt'⟩⟩

theorem CaptureLegal.after_rxReadChecksum {c : Byte} {s t : State} (h : CaptureInRange s)
    (ht : rxReadChecksum c s = .next t) : CaptureLegal t := by
  unfold rxReadChecksum at ht
  split at ht
  · cases ht
  · split at ht <;> cases ht <;> exact ⟨h, trivial⟩

/-- Every byte that is received keeps the capture registers legal (R65 to R72). -/
theorem CaptureLegal.after_receive {b : Byte} {s t : State} (h : CaptureLegal s) (ht : receive b s = .next t) :
    CaptureLegal t := by
  unfold receive at ht
  split at ht
  case h_1 => cases ht; exact h.after_rxSeekMarker1 b
  case h_2 => cases ht; exact .after_rxSeekMarker2 b h.1
  case h_3 hd => exact h.after_rxReadHeader hd ht
  case h_4 hd => exact h.after_rxReadParams hd ht
  case h_5 => exact .after_rxReadChecksum h.1 ht
  all_goals cases ht

/-- The frame that a DECODE returns is one that R49 allows (R72). -/
theorem frameResult_sound {c : Byte} {s : State} (hd : s.dstate = .readChecksum) (h : CaptureLegal s)
    (hc : c = chk (capturedBody s)) : (frameResult c s).Sound := by
  obtain ⟨⟨-, hnp, -⟩, ha⟩ := h
  obtain ⟨hlen, hnpLen, -⟩ := (captureAgrees_readChecksum_iff hd).1 ha
  have hps : (s.rxP.toList.take s.rxNp.toNat).length = s.rxLen.toNat - Config.lenBias := by
    simp
    omega
  rw [hc, frameResult_eq_frameReport _ hnp]
  exact frameReport_frame_sound ⟨hlen, hps⟩

/-- A byte that is received keeps the invariant: the DECODE goes on, or it returns a sound frame. -/
theorem Inv.after_receive {b : Byte} {s t : State} (h : Inv s) (he : s.eng = .decode)
    (ht : receive b s = .next t) : Inv t := by
  have hi : s.txI = 0 := h.encoderRests (by simp [he])
  have hs : CaptureLegal s := ⟨h.captureInRange, h.reading he⟩
  obtain ⟨hr, ha⟩ := hs.after_receive ht
  obtain ⟨_, _, _, _, _, _, _, _, rfl⟩ | ⟨hd, -, hc, rfl⟩ := receive_next ht
  · exact inv_of_decode he hi h.txNLegal hr ha (h.busyNoResult (by simp [he])) (h.noteWhileBusy (by simp [he]))
  · exact inv_of_idle rfl rfl hi h.txNLegal hr fun _ => ⟨frameResult_sound hd hs hc, rfl⟩

theorem Inv.after_timeoutEvent {s : State} (h : Inv s) (he : s.eng = .decode) : Inv (timeoutEvent s) :=
  inv_of_idle rfl rfl (h.encoderRests (by simp [he])) h.txNLegal h.captureInRange fun _ =>
    ⟨codecError_result_sound (e := .timeout) nofun, rfl⟩

end Sys2Proof.Machine

namespace Sys2Proof.Claims
open Sys2Proof.Machine

/-- Settles O57: `step_next` names what a step can do, and the invariant survives each (reset, acceptance, a byte sent, a byte
received, a timeout, a turn of the environment). -/
theorem stepKeepsTheInvariant : Obligations.StepKeepsTheInvariant := by
  intro s t h ht
  obtain ⟨-, -, ht⟩ := step_next ht
  rcases ht with ⟨-, rfl⟩ | ⟨-, -, _, -, ht⟩ | ⟨-, he, ht⟩ | ⟨-, he, _, _, -, ht⟩ | ⟨-, he, rfl⟩ | ⟨-, -, rfl⟩
  · exact inv_resetBlock _
  · exact h.after_popTurn.after_exec ht
  · exact h.after_popTurn.after_txAccept (by simpa using he) ht
  · exact h.after_popTurn.after_consume.after_receive (by simpa using he) ht
  · exact h.after_popTurn.after_timeoutEvent (by simpa using he)
  · exact h.after_popTurn.after_environmentMove _

/-- Settles O56: the power-on state is what the reset event makes of itself. -/
theorem resetMeetsTheInvariant : Obligations.ResetMeetsTheInvariant := inv_resetBlock State.reset

end Sys2Proof.Claims
end

section
/-! PROOFS. What a step does to the result (R20, R21), the values that fault (R16, R17), and what the host reads (R15, R22). -/

namespace Sys2Proof.Machine

/-! ### The result after a step (R20, R21) -/

/-- A turn that enables no event accepts no command. -/
theorem not_acceptsNow_of_noEvent {s : State} (h : enabledEvent (nextTurn s) (popTurn s) = none) :
    ¬Claims.AcceptsNow s := by
  rintro ⟨ht, he, hw⟩
  obtain ⟨w, hw⟩ := Option.isSome_iff_exists.1 hw
  simp [ht, enabledEvent, he, hw] at h

theorem not_acceptsNow_of_turn {s : State} (h : nextTurn s ≠ .host) : ¬Claims.AcceptsNow s := fun ha => h ha.1

/-- The operation that step `s` to `t` ends is one that can have the kind of result that `t` reports. -/
def EndsWithItsKind (s t : State) : Prop :=
  (s.eng = .encode ∧ t.res.kind = .txDone) ∨ (s.eng = .decode ∧ (t.res.kind = .frame ∨ t.res.kind = .timeout))

theorem EndsWithItsKind.busy {s t : State} (h : EndsWithItsKind s t) : s.eng ≠ .idle := by
  rcases h with ⟨he, -⟩ | ⟨he, -⟩ <;> simp [he]

/-- What a step outside reset does to `ENG`, `RES_VALID` and `RES`: it accepts a command, which goes on or fails at once; or it
accepts none, and leaves all three alone or completes the operation in progress (R20, R21, R45). -/
theorem step_result {s t : State} (h : step s = .next t) (hr : nextTurn s ≠ .reset) :
    (Claims.AcceptsNow s ∧ t.eng ≠ .idle ∧ t.resValid = false ∧ t.res = s.res) ∨
    (Claims.AcceptsNow s ∧ t.eng = .idle ∧ t.resValid = true ∧ t.res.kind = .encodingError) ∨
    (¬Claims.AcceptsNow s ∧ t.eng = s.eng ∧ t.resValid = s.resValid ∧ t.res = s.res) ∨
    (¬Claims.AcceptsNow s ∧ t.eng = .idle ∧ t.resValid = true ∧ EndsWithItsKind s t) := by
  obtain ⟨-, -, h⟩ := step_next h
  rcases h with ⟨ht, -⟩ | ⟨ht, he, w, hw, hx⟩ | ⟨ht, he, hx⟩ | ⟨ht, he, b, rest, -, hx⟩ | ⟨ht, he, rfl⟩ | ⟨hn, -, rfl⟩
  · exact absurd ht hr
  · have ha : Claims.AcceptsNow s := ⟨ht, he, by simp [hw]⟩
    obtain ⟨-, -, ⟨hbusy, -⟩ | ⟨-, -, rfl⟩ | ⟨-, -, v, o, -, rfl⟩ | ⟨-, -, r, -, rfl⟩⟩ := exec_next hx
    · exact absurd (by simpa using he) hbusy
    · exact .inl ⟨ha, by simp⟩
    · exact .inl ⟨ha, by simp⟩
    · exact .inr (.inl ⟨ha, rfl, rfl, rfl⟩)
  · have ha := not_acceptsNow_of_turn (s := s) (by simp [ht])
    obtain ⟨-, -, -, ⟨-, rfl⟩ | ⟨-, rfl⟩⟩ := txAccept_next hx
    · exact .inr (.inr (.inl ⟨ha, by simp⟩))
    · exact .inr (.inr (.inr ⟨ha, rfl, rfl, .inl ⟨he, rfl⟩⟩))
  · have ha := not_acceptsNow_of_turn (s := s) (by simp [ht])
    obtain ⟨_, _, _, _, _, _, _, _, rfl⟩ | ⟨-, -, -, rfl⟩ := receive_next hx
    · exact .inr (.inr (.inl ⟨ha, by simp⟩))
    · exact .inr (.inr (.inr ⟨ha, rfl, rfl, .inr ⟨he, .inl rfl⟩⟩))
  · have ha := not_acceptsNow_of_turn (s := s) (by simp [ht])
    exact .inr (.inr (.inr ⟨ha, rfl, rfl, .inr ⟨he, .inr rfl⟩⟩))
  · have hb := sameBlock_environmentMove (nextTurn s) (popTurn s)
    rw [hb]
    exact .inr (.inr (.inl ⟨not_acceptsNow_of_noEvent hn, by simp⟩))

/-! ### Values that are never written (R16, R17) -/

theorem DState.isReserved_iff_code (d : DState) : d.isReserved = true ↔ d.code = 5 ∨ d.code = 6 ∨ d.code = 7 := by
  cases d <;> decide

end Sys2Proof.Machine

namespace Sys2Proof.Claims
open Sys2Proof.Machine

/-- Settles O5: of the four cases of `step_result`, two leave `RES` as it was and two complete an operation. -/
theorem onlyCompletionWritesResult : Obligations.OnlyCompletionWritesResult := by
  intro s t h hr
  rcases step_result h hr with ⟨-, -, -, hres⟩ | ⟨⟨-, he, -⟩, hte, hv, hk⟩ | ⟨-, -, -, hres⟩ | ⟨-, hte, hv, henc | hdec⟩
  · exact .inl hres
  · exact .inr ⟨hv, hte, .inr (.inr ⟨he, hk⟩)⟩
  · exact .inl hres
  · exact .inr ⟨hv, hte, .inl henc⟩
  · exact .inr ⟨hv, hte, .inr (.inl hdec)⟩

/-- Settles O6: the same four cases, the first two of them at acceptance. -/
theorem resultValidFollowsTheCommand : Obligations.ResultValidFollowsTheCommand := by
  intro s t h hr
  rcases step_result h hr with ⟨ha, hte, hv, -⟩ | ⟨ha, hte, hv, -⟩ | ⟨ha, hte, hv, -⟩ | ⟨ha, hte, hv, hk⟩
  · exact ⟨fun _ => by simp [hv, hte], fun hna => absurd ha hna⟩
  · exact ⟨fun _ => by simp [hv, hte], fun hna => absurd ha hna⟩
  · exact ⟨fun h => absurd h ha, fun _ => .inl ⟨hv, hte⟩⟩
  · exact ⟨fun h => absurd h ha, fun _ => .inr ⟨EndsWithItsKind.busy hk, hte, hv⟩⟩

/-- Settles O1: every field of `State.reset`, and the two words that the host reads. -/
theorem powerOnValues : Obligations.PowerOnValues := by
  refine ⟨rfl, rfl, rfl, rfl, rfl, rfl, rfl, rfl, rfl, rfl, rfl, rfl, rfl, ?_, ?_⟩
  · decide
  · decide

/-- Settles O2: `step_illegal` at `ENG = 3`. -/
theorem reservedEngineValueFaults : Obligations.ReservedEngineValueFaults := by
  intro s he
  rw [step_illegal (.inl he), if_pos he]

/-- Settles O3: the codes 5 to 7 are the reserved values, and `step_illegal` says what they do. -/
theorem reservedDecoderValueFaults : Obligations.ReservedDecoderValueFaults := by
  intro s hd he
  rw [step_illegal (.inr ((DState.isReserved_iff_code _).2 hd)), if_neg he]

/-- Settles O7: `READY` and `RES_VALID` are the only fields placed in the word. -/
theorem statusBits : Obligations.StatusBits := by
  intro s
  refine ⟨?ready, ?resValid, ?others⟩
  case ready => simp [status, place, ready, Bool.beq_eq_decide_eq]
  case resValid => simp [status, place]
  case others => simp [status, extract_or, extract_place_disjoint]

end Sys2Proof.Claims
end

section
/-! PROOFS. The byte streams and the command port during an operation: what a step sends and receives (R26, R29 to R33), what
the byte events leave alone (R59, R77), and that an operation does not see what the host presents later (R35). -/

namespace Sys2Proof.Machine

/-! ### What each event does to the streams, and what it leaves (R26, R29, R30) -/

/-- The acceptance of a command moves no byte. -/
theorem exec_streams {i : Instr} {s t : State} (h : exec i s = .next t) :
    t.txSink = s.txSink ∧ t.rxSource = s.rxSource := by
  obtain ⟨-, -, ⟨-, rfl⟩ | ⟨-, -, rfl⟩ | ⟨-, -, v, o, -, rfl⟩ | ⟨-, -, r, -, rfl⟩⟩ := exec_next h <;> exact ⟨rfl, rfl⟩

@[simp] theorem byteOnOffer_popTurn (s : State) : byteOnOffer (popTurn s) = byteOnOffer s := by simp [byteOnOffer]

/-- A byte that the sink accepts is the one on offer, and the RX source keeps what it has. -/
theorem txAccept_streams {s t : State} (he : s.eng = .encode) (h : txAccept s = .next t) :
    t.rxSource = s.rxSource ∧ ∃ b, byteOnOffer s = some b ∧ t.txSink = s.txSink ++ [b] := by
  obtain ⟨-, -, hi, ht⟩ := txAccept_next h
  have hoffer : byteOnOffer s = some (txByte s s.txI.toNat) := by
    simp [byteOnOffer, txByte, he, show s.txI.toNat < 10 by omega]
  obtain ⟨-, rfl⟩ | ⟨-, rfl⟩ := ht <;> exact ⟨rfl, _, hoffer, rfl⟩

/-- Sending leaves the decoder, the frame in `TXBUF` and what the host presents. -/
theorem txAccept_frame {s t : State} (h : txAccept s = .next t) :
    t.dstate = s.dstate ∧ t.rxAddr = s.rxAddr ∧ t.rxLen = s.rxLen ∧ t.rxInstr = s.rxInstr ∧ t.rxHi = s.rxHi ∧
      t.rxNp = s.rxNp ∧ t.rxPi = s.rxPi ∧ t.rxP = s.rxP ∧ t.txBuf = s.txBuf ∧ t.txN = s.txN ∧
      t.hostQueue = s.hostQueue := by
  obtain ⟨-, -, -, ⟨-, rfl⟩ | ⟨-, rfl⟩⟩ := txAccept_next h <;> simp

/-- The decoder's work on a byte, already consumed, moves no byte. -/
theorem receive_streams {b : Byte} {s t : State} (h : receive b s = .next t) :
    t.txSink = s.txSink ∧ t.rxSource = s.rxSource := by
  obtain ⟨_, _, _, _, _, _, _, _, rfl⟩ | ⟨-, -, -, rfl⟩ := receive_next h <;> exact ⟨rfl, rfl⟩

/-- Receiving leaves the transmitter and what the host presents. -/
theorem receive_frame {b : Byte} {s t : State} (h : receive b s = .next t) :
    t.txBuf = s.txBuf ∧ t.txN = s.txN ∧ t.txI = s.txI ∧ t.hostQueue = s.hostQueue := by
  obtain ⟨_, _, _, _, _, _, _, _, rfl⟩ | ⟨-, -, -, rfl⟩ := receive_next h <;> exact ⟨rfl, rfl, rfl, rfl⟩

/-! ### A step whose turn is a byte event, or would be one (R12) -/

theorem step_next_txAccept {s t : State} (h : step s = .next t) (ht : nextTurn s = .txAccept) :
    txAccept (popTurn s) = .next t ∨ t = popTurn s := by
  obtain ⟨-, -, h⟩ := step_next h
  simp only [ht, environmentMove, reduceCtorEq, false_and, false_or, true_and] at h
  exact h.imp And.right (And.right ∘ And.right)

theorem step_next_rxDeliver {s t : State} (h : step s = .next t) (ht : nextTurn s = .rxDeliver) :
    (∃ b, receive b (consume (popTurn s)) = .next t) ∨ t = popTurn s := by
  obtain ⟨-, -, h⟩ := step_next h
  simp only [ht, environmentMove, reduceCtorEq, false_and, false_or, true_and] at h
  obtain ⟨-, b, -, -, hx⟩ | ⟨-, -, hx⟩ := h
  · exact .inl ⟨b, hx⟩
  · exact .inr hx

theorem step_next_timeout {s t : State} (h : step s = .next t) (ht : nextTurn s = .timeout) :
    t = timeoutEvent (popTurn s) ∨ t = popTurn s := by
  obtain ⟨-, -, h⟩ := step_next h
  simp only [ht, environmentMove, reduceCtorEq, false_and, false_or, true_and] at h
  exact h.imp And.right (And.right ∘ And.right)

/-! ### What the host will present, replaced (R35) -/

/-- `s` with `q` in the place of what the host will present. -/
def withQueue (q : List HostItem) (s : State) : State := { s with hostQueue := q }

@[simp] theorem withQueue_eng (q : List HostItem) (s : State) : (withQueue q s).eng = s.eng := rfl
@[simp] theorem nextTurn_withQueue (q : List HostItem) (s : State) : nextTurn (withQueue q s) = nextTurn s := rfl
@[simp] theorem consume_withQueue (q : List HostItem) (s : State) :
    consume (withQueue q s) = withQueue q (consume s) := rfl
@[simp] theorem resetBlock_withQueue (q : List HostItem) (s : State) :
    resetBlock (withQueue q s) = withQueue q (resetBlock s) := rfl
@[simp] theorem timeoutEvent_withQueue (q : List HostItem) (s : State) :
    timeoutEvent (withQueue q s) = withQueue q (timeoutEvent s) := rfl

@[simp] theorem popTurn_withQueue (q : List HostItem) (s : State) :
    popTurn (withQueue q s) = withQueue q (popTurn s) := by
  cases h : s.schedule <;> simp [popTurn, withQueue, h]

/-- What the host will present after turn `t`, if it was `q` before: a busy engine takes nothing off it (R45). -/
def queueAfter (t : Turn) (q : List HostItem) : List HostItem :=
  match t with
  | .present i => q ++ [i]
  | .host | .txAccept | .rxDeliver | .timeout | .reset | .arrive _ | .wait => q

theorem environmentMove_withQueue (t : Turn) (q : List HostItem) (s : State) :
    environmentMove t (withQueue q s) = withQueue (queueAfter t q) (environmentMove t s) := by
  cases t <;> rfl

/-- Only an idle engine looks at the command port, so a busy one has the same event whatever the host presents. -/
theorem enabledEvent_withQueue {s : State} (he : s.eng ≠ .idle) (t : Turn) (q : List HostItem) :
    enabledEvent t (withQueue q s) = enabledEvent t s := by
  cases t
  case host => simp [enabledEvent_host_eq_none, he]
  all_goals rfl

/-- A busy engine accepts no command (R45). -/
theorem enabledEvent_ne_accept {s : State} (he : s.eng ≠ .idle) (t : Turn) (w : CmdWord) :
    enabledEvent t s ≠ some (.accept w) := by
  cases t <;> simp [enabledEvent, he]

/-- The turn in which the host lines up an item is no event of the block. -/
theorem queueAfter_of_event {t : Turn} {s : State} {e : Event} (h : enabledEvent t s = some e) (q : List HostItem) :
    queueAfter t q = q := by
  cases t
  case present => cases h
  all_goals rfl

/-- The outcome `o` with its next state, if it has one, changed by `f`. -/
def mapNext (f : State → State) : Out → Out
  | .next s => .next (f s)
  | .fault r => .fault r
  | .refused r => .refused r

@[simp] theorem mapNext_next (f : State → State) (s : State) : mapNext f (.next s) = .next (f s) := rfl

theorem mapNext_of_stops {o : Out} (f : State → State) (h : ∀ u, o ≠ .next u) : mapNext f o = o := by
  cases o with
  | next u => exact absurd rfl (h u)
  | fault r => rfl
  | refused r => rfl

theorem guardLegal_withQueue (q : List HostItem) (f : State → State) (s : State) (k : Out) :
    guardLegal (withQueue q s) (mapNext f k) = mapNext f (guardLegal s k) := by
  unfold guardLegal withQueue
  split
  · rfl
  · dsimp only
    split <;> rfl

theorem txAccept_withQueue (q : List HostItem) (s : State) :
    txAccept (withQueue q s) = mapNext (withQueue q) (txAccept s) := by
  unfold txAccept withQueue
  split
  · rfl
  · dsimp only
    split <;> rfl

theorem rxSeekMarker1_withQueue (b : Byte) (q : List HostItem) (s : State) :
    rxSeekMarker1 b (withQueue q s) = withQueue q (rxSeekMarker1 b s) := by
  unfold rxSeekMarker1
  split <;> rfl

theorem rxSeekMarker2_withQueue (b : Byte) (q : List HostItem) (s : State) :
    rxSeekMarker2 b (withQueue q s) = withQueue q (rxSeekMarker2 b s) := by
  unfold rxSeekMarker2
  split <;> rfl

theorem lengthCheck_withQueue (q : List HostItem) (s : State) :
    lengthCheck (withQueue q s) = withQueue q (lengthCheck s) := by
  unfold lengthCheck withQueue
  split
  · rfl
  · dsimp only
    split <;> rfl

theorem rxReadHeader_withQueue (b : Byte) (q : List HostItem) (s : State) :
    rxReadHeader b (withQueue q s) = mapNext (withQueue q) (rxReadHeader b s) := by
  unfold rxReadHeader
  dsimp only [withQueue]
  split
  · rfl
  · rfl
  · exact congrArg Host.Outcome.next (lengthCheck_withQueue q { s with rxInstr := b })
  · rfl

theorem rxReadParams_withQueue (b : Byte) (q : List HostItem) (s : State) :
    rxReadParams b (withQueue q s) = mapNext (withQueue q) (rxReadParams b s) := by
  unfold rxReadParams withQueue
  split
  · rfl
  · dsimp only
    split <;> rfl

theorem rxReadChecksum_withQueue (c : Byte) (q : List HostItem) (s : State) :
    rxReadChecksum c (withQueue q s) = mapNext (withQueue q) (rxReadChecksum c s) := by
  have hbody : capturedBody (withQueue q s) = capturedBody s := rfl
  unfold rxReadChecksum
  rw [hbody]
  unfold withQueue
  split
  · rfl
  · dsimp only
    split <;> rfl

theorem receive_withQueue (b : Byte) (q : List HostItem) (s : State) :
    receive b (withQueue q s) = mapNext (withQueue q) (receive b s) := by
  have hd : (withQueue q s).dstate = s.dstate := rfl
  unfold receive
  rw [hd]
  split
  · exact congrArg Host.Outcome.next (rxSeekMarker1_withQueue b q s)
  · exact congrArg Host.Outcome.next (rxSeekMarker2_withQueue b q s)
  · exact rxReadHeader_withQueue b q s
  · exact rxReadParams_withQueue b q s
  · exact rxReadChecksum_withQueue b q s
  all_goals rfl

/-- A turn at a busy engine does the same whatever the host will present, and leaves that as `queueAfter` says. -/
theorem stepTurn_withQueue {s : State} (he : s.eng ≠ .idle) (t : Turn) (q : List HostItem) :
    stepTurn t (withQueue q s) = mapNext (withQueue (queueAfter t q)) (stepTurn t s) := by
  unfold stepTurn
  rw [enabledEvent_withQueue he, ← guardLegal_withQueue q]
  congr 1
  cases hev : enabledEvent t s with
  | none => exact congrArg Host.Outcome.next (environmentMove_withQueue t q s)
  | some e =>
    rw [queueAfter_of_event hev]
    cases e with
    | accept w => exact absurd hev (enabledEvent_ne_accept he t w)
    | txAccept => exact txAccept_withQueue q s
    | rxByte b => exact receive_withQueue b q (consume s)
    | timeout => rfl
    | reset => rfl

theorem step_withQueue {s : State} (he : s.eng ≠ .idle) (q : List HostItem) :
    step (withQueue q s) = mapNext (withQueue (queueAfter (nextTurn s) q)) (step s) := by
  unfold step
  rw [popTurn_withQueue, nextTurn_withQueue]
  exact stepTurn_withQueue (by simpa using he) _ q

end Sys2Proof.Machine

namespace Sys2Proof.Claims
open Sys2Proof.Machine

/-- Settles O8: `step_next` names what a step can do; of its cases only a byte sent, a byte consumed and a byte that arrives
move a stream, each its own and by one byte. -/
theorem streamsMoveOneByteHalfDuplex : Obligations.StreamsMoveOneByteHalfDuplex := by
  intro s t h
  obtain ⟨-, -, h⟩ := step_next h
  rcases h with ⟨-, rfl⟩ | ⟨-, -, w, -, hx⟩ | ⟨ht, he, hx⟩ | ⟨ht, he, b, rest, hb, hx⟩ | ⟨-, -, rfl⟩ | ⟨-, -, rfl⟩
  · exact .inl (by simp)
  · exact .inl (by simpa using exec_streams hx)
  · exact .inr (.inl ⟨he, ht, by simpa using txAccept_streams (by simpa using he) hx⟩)
  · obtain ⟨hsink, hsource⟩ := receive_streams hx
    exact .inr (.inr (.inl ⟨he, ht, by simpa using hsink, b, by simp [hsource, consume, hb]⟩))
  · exact .inl (by simp)
  · obtain ⟨i, -, hm⟩ | ⟨b, hb, hm⟩ | ⟨-, -, hm⟩ := environmentMove_cases (nextTurn s) (popTurn s) <;> rw [hm]
    · exact .inl (by simp)
    · exact .inr (.inr (.inr ⟨by simp, b, hb, by simp⟩))
    · exact .inl (by simp)

/-- Settles O9: the step of a busy state commutes with replacing what the host will present (`step_withQueue`). -/
theorem portActivityDoesNotReachOperation : Obligations.PortActivityDoesNotReachOperation := by
  intro s t q he
  have hstep := step_withQueue he q
  refine ⟨fun h => ⟨queueAfter (nextTurn s) q, ?_⟩, fun hstop => ?_⟩
  · rw [h] at hstep
    exact hstep
  · rw [mapNext_of_stops _ hstop] at hstep
    exact hstep

/-- Settles O50: the frames of the three byte events (`txAccept_frame`, `receive_frame`), and of a turn that is none. -/
theorem byteEventFrame : Obligations.ByteEventFrame := by
  intro s t h
  refine ⟨fun ht => ?_, ?_⟩
  · rcases step_next_txAccept h ht with hx | rfl
    · simpa using txAccept_frame hx
    · simp
  · rintro (ht | ht)
    · rcases step_next_rxDeliver h ht with ⟨b, hx⟩ | rfl
      · simpa using receive_frame hx
      · simp
    · rcases step_next_timeout h ht with rfl | rfl <;> simp

end Sys2Proof.Claims
end

section
/-! PROOFS. The command word (R44, R46, R50, R51): the row that an instruction byte selects, the round trips of the encoder and
the decoder, and the bits that the engine ignores. -/

namespace Sys2Proof

/-! ### The legal instruction bytes (R51) -/

theorem isValidOpcode_iff (v : Byte) : isValidOpcode v = true ↔
    (v.toNat = 1 ∨ v.toNat = 2 ∨ v.toNat = 7 ∨ v.toNat = 8 ∨ (11 ≤ v.toNat ∧ v.toNat ≤ 14) ∨
      (17 ≤ v.toNat ∧ v.toNat ≤ 36)) := by
  simp only [isValidOpcode, Config.validOpcodes, List.contains_iff_mem, List.mem_append, List.mem_cons, List.not_mem_nil,
    ← BitVec.toNat_inj, BitVec.reduceToNat, or_false]
  constructor <;> omega

theorem length_filter_isValidOpcode :
    ((List.range 256).filter fun n => isValidOpcode (BitVec.ofNat 8 n)).length = 28 := by
  decide +kernel

/-! ### The row that an instruction byte selects -/

/-- An illegal instruction byte selects the generic row (log entry 5). -/
theorem encodeRow_of_illegal {v : Byte} (o : EncOperands) (h : isValidOpcode v = false) : encodeRow v o = .encode o v := by
  unfold encodeRow
  split
  case h_29 => rfl
  all_goals
    rename_i hv
    simp [(isValidOpcode_iff v).2 (by omega)] at h

theorem wf_encodeRow (v : Byte) (o : EncOperands) : (encodeRow v o).wf = true := by
  unfold encodeRow
  split
  case h_29 =>
    simp only [imp_false] at *
    have hv : ¬isValidOpcode v = true := by
      rw [isValidOpcode_iff]
      omega
    simpa [Instr.wf] using hv
  all_goals rfl

theorem encode_encodeRow (v : Byte) (o : EncOperands) : encode (encodeRow v o) = packEncode v o := by
  unfold encodeRow
  split
  case h_29 => rfl
  all_goals
    rename_i h
    obtain rfl := Machine.byte_eq_ofNat h
    rfl

/-! ### The decoder on the two operations (R50) -/

theorem decodeWord_of_op_one {w : CmdWord} (h : cmdOp w = 1) : decodeWord w = .decode := if_pos h

theorem decodeWord_of_op_zero {w : CmdWord} (h : cmdOp w = 0) :
    decodeWord w = encodeRow (cmdInstr w) (cmdOperands w) := by
  simp [decodeWord, h]

theorem wf_decodeWord (w : CmdWord) : (decodeWord w).wf = true := by
  rcases BitVec.eq_zero_or_eq_one (cmdOp w) with h | h
  · rw [decodeWord_of_op_zero h]
    exact wf_encodeRow _ _
  · rw [decodeWord_of_op_one h]
    rfl

theorem decodeWord_packEncode (v : Byte) (o : EncOperands) : decodeWord (packEncode v o) = encodeRow v o := by
  obtain ⟨hop, hv, ho⟩ := packEncode_fields v o
  rw [decodeWord_of_op_zero hop, hv, ho]

/-! ### The round trips -/

theorem decodeWord_encode {i : Instr} (h : i.wf = true) : decodeWord (encode i) = i := by
  cases i with
  | decode => rfl
  | encode o v => exact (decodeWord_packEncode v o).trans (encodeRow_of_illegal o (by simpa [Instr.wf] using h))
  | _ o => exact decodeWord_packEncode _ o

theorem decode_bytesOfWord (w : CmdWord) (rest : List Byte) :
    decode (bytesOfWord w ++ rest) = .ok (decodeWord w, rest) := by
  simp [bytesOfWord, decode, wordOfBytes_bytesOfWord]

/-- An ENCODE word made again from its fields is the word with `CMD[7:4]` cleared (R46). -/
theorem packEncode_cmdFields {w : CmdWord} (h : cmdOp w = 0) :
    packEncode (cmdInstr w) (cmdOperands w) = w &&& 0xFFFFFFFFFFFF0F := by
  have hop : w[0] = false := by simpa [cmdOp, BitVec.eq_of_getLsbD_eq_iff] using h
  apply BitVec.eq_of_getLsbD_eq
  intro i hi
  simp only [packEncode, place, cmdOperands, cmdNParam, cmdAddr, cmdInstr, cmdP0, cmdP1, cmdP2, cmdP3, BitVec.getLsbD_or,
    BitVec.getLsbD_and, BitVec.getLsbD_shiftLeft, BitVec.getLsbD_setWidth, BitVec.getLsbD_extractLsb']
  interval_cases i <;> simp [hop]

end Sys2Proof

namespace Sys2Proof.Machine

/-! ### Bits that the engine ignores (R46) -/

/-- The first `n` of four bytes depend on those at an index below `n` only. -/
theorem take_four_congr {n : Nat} {a b c d a' b' c' d' : Byte} (ha : 0 < n → a = a') (hb : 1 < n → b = b')
    (hc : 2 < n → c = c') (hd : 3 < n → d = d') : [a, b, c, d].take n = [a', b', c', d'].take n := by
  match n with
  | 0 => rfl
  | 1 => simp [ha]
  | 2 => simp [ha, hb]
  | 3 => simp [ha, hb, hc]
  | n + 4 => simp [ha, hb, hc, hd]

/-- An ENCODE uses its address, its count and the parameters that the count covers. -/
theorem encodeCommand_congr {v : Byte} {o o' : EncOperands} (s : State) (hn : o.nparam = o'.nparam)
    (ha : o.addr = o'.addr) (hp : params o = params o') : encodeCommand v o s = encodeCommand v o' s := by
  have hstart : startEncode v o = startEncode v o' := by
    funext s
    unfold startEncode
    rw [hn, ha, hp]
  unfold encodeCommand
  rw [hstart]

end Sys2Proof.Machine

namespace Sys2Proof.Claims
open Sys2Proof.Machine

/-- Settles O11: the word of a well-formed instruction carries its row's instruction byte and operands, which select the row
again (`decodeWord_encode`), and its bytes make the word again (`decode_bytesOfWord`). -/
theorem decodeOfEncodeIsTheInstruction : Obligations.DecodeOfEncodeIsTheInstruction := by
  intro i hi
  have hword := decodeWord_encode hi
  refine ⟨hword, fun rest => ?_⟩
  rw [decode_bytesOfWord, hword]

/-- Settles O12: the encoder writes the fields that the decoder reads, and nothing else (`packEncode_cmdFields`). -/
theorem encodeOfDecodeClearsReservedBits : Obligations.EncodeOfDecodeClearsReservedBits := by
  intro w
  refine ⟨wf_decodeWord w, fun h => ?_, fun h => ?_⟩
  · rw [decodeWord_of_op_zero h, encode_encodeRow, packEncode_cmdFields h]
  · rw [decodeWord_of_op_one h]
    rfl

/-- Settles O13: each word evaluated. -/
theorem commandWordsDecodeAsTheSpecLaysThemOut : Obligations.CommandWordsDecodeAsTheSpecLaysThemOut := by
  refine ⟨?_, ?_, ?_, ?_, ?_, ?_⟩ <;> decide

/-- Settles O19: the same row with operands that agree where they count (`encodeCommand_congr`), or DECODE twice. -/
theorem ignoredBitsHaveNoEffect : Obligations.IgnoredBitsHaveNoEffect := by
  intro w w' s ⟨hop, hfields⟩
  rcases BitVec.eq_zero_or_eq_one (cmdOp w) with h | h
  · obtain ⟨hn, ha, hv, h0, h1, h2, h3⟩ := hfields h
    rw [exec_decodeWord_encode h, exec_decodeWord_encode (hop ▸ h), hv]
    refine encodeCommand_congr s hn ha ?_
    simp only [params, cmdOperands, ← hn]
    exact take_four_congr h0 h1 h2 h3
  · rw [decodeWord_of_op_one h, decodeWord_of_op_one (hop ▸ h)]

/-- Settles O22: the list of the legal values, and the two counts, of which the second is what the first leaves of 256. -/
theorem legalInstructionBytes : Obligations.LegalInstructionBytes := by
  have hlegal := length_filter_isValidOpcode
  have htotal := List.length_eq_length_filter_add (l := List.range 256) fun n => isValidOpcode (BitVec.ofNat 8 n)
  rw [List.length_range, hlegal] at htotal
  exact ⟨isValidOpcode_iff, hlegal, by omega⟩

end Sys2Proof.Claims
end

section
/-! PROOFS. The result word (R48): every field stands where it was put, so the word determines the result. -/

namespace Sys2Proof.Machine

theorem pack_fields (r : Result) :
    r.pack.extractLsb' 0 2 = r.kind.code ∧ r.pack.extractLsb' 2 3 = r.reason ∧ r.pack.extractLsb' 5 3 = r.rnp ∧
    r.pack.extractLsb' 8 8 = r.addr ∧ r.pack.extractLsb' 16 8 = r.len ∧ r.pack.extractLsb' 24 8 = r.instr ∧
    r.pack.extractLsb' 32 8 = r.p0 ∧ r.pack.extractLsb' 40 8 = r.p1 ∧ r.pack.extractLsb' 48 8 = r.p2 ∧
    r.pack.extractLsb' 56 8 = r.p3 ∧ r.pack.extractLsb' 64 8 = r.chk := by
  simp [Result.pack, extract_or, extract_place_disjoint, extract_place_same]

/-- The kind with code `c`: what `Kind.code` undoes. -/
def Kind.ofCode (c : BitVec 2) : Kind :=
  if c = 0 then .txDone else if c = 1 then .frame else if c = 2 then .timeout else .encodingError

@[simp] theorem Kind.ofCode_code (k : Kind) : Kind.ofCode k.code = k := by cases k <;> rfl

/-- The result that the host reads in `w` (R48). -/
def Result.unpack (w : ResWord) : Result :=
  { kind := Kind.ofCode (w.extractLsb' 0 2), reason := w.extractLsb' 2 3, rnp := w.extractLsb' 5 3
    addr := w.extractLsb' 8 8, len := w.extractLsb' 16 8, instr := w.extractLsb' 24 8
    p0 := w.extractLsb' 32 8, p1 := w.extractLsb' 40 8, p2 := w.extractLsb' 48 8, p3 := w.extractLsb' 56 8
    chk := w.extractLsb' 64 8 }

theorem unpack_pack (r : Result) : Result.unpack r.pack = r := by
  obtain ⟨hkind, hreason, hrnp, haddr, hlen, hinstr, hp0, hp1, hp2, hp3, hchk⟩ := pack_fields r
  simp only [Result.unpack, hkind, hreason, hrnp, haddr, hlen, hinstr, hp0, hp1, hp2, hp3, hchk, Kind.ofCode_code]

end Sys2Proof.Machine

namespace Sys2Proof.Claims
open Sys2Proof.Machine

/-- Settles O20: `pack_fields`, and the codes as they are defined. -/
theorem resultWordLayout : Obligations.ResultWordLayout := ⟨pack_fields, rfl, rfl, rfl, rfl, rfl, rfl, rfl⟩

/-- Settles O21: `Result.unpack` reads the result back. -/
theorem resultWordIsInjective : Obligations.ResultWordIsInjective := fun _ _ h =>
  Function.LeftInverse.injective unpack_pack h

end Sys2Proof.Claims
end

section
/-! PROOFS. The assembler (R52): which operands have bytes, and the word of an ENCODE line. -/

namespace Sys2Proof.Machine

/-! ### Numbers and the bytes they stand for -/

theorem asmByte_eq_some_iff {n : Nat} {b : Byte} : asmByte n = some b ↔ b.toNat = n := by
  unfold asmByte
  split <;> simp <;> bv_omega

theorem asmBytes_cons_eq_some_iff {n : Nat} {ns : List Nat} {bs : List Byte} :
    asmBytes (n :: ns) = some bs ↔ ∃ b bs', bs = b :: bs' ∧ asmByte n = some b ∧ asmBytes ns = some bs' := by
  rw [asmBytes]
  split
  case h_1 b bs' hb hbs => simp [hb, hbs, eq_comm]
  case h_2 h => simp_all

theorem asmBytes_eq_some_iff {ns : List Nat} {bs : List Byte} :
    asmBytes ns = some bs ↔ bs.map BitVec.toNat = ns := by
  induction ns generalizing bs with
  | nil => simp [asmBytes]
  | cons n ns ih => simp only [asmBytes_cons_eq_some_iff, asmByte_eq_some_iff, ih, List.map_eq_cons_iff]

theorem exists_byte_toNat_eq_iff {n : Nat} : (∃ b : Byte, b.toNat = n) ↔ n ≤ 255 := by
  constructor
  · rintro ⟨b, rfl⟩
    have := b.isLt
    omega
  · exact fun h => ⟨BitVec.ofNat 8 n, Nat.mod_eq_of_lt (by omega)⟩

theorem exists_bytes_toNat_eq_iff {ns : List Nat} :
    (∃ bs : List Byte, bs.map BitVec.toNat = ns) ↔ ∀ n ∈ ns, n ≤ 255 := by
  have h := Set.ext_iff.1 (Set.range_list_map (BitVec.toNat : Byte → Nat)) ns
  simpa only [Set.mem_range, Set.mem_ofPred_eq, exists_byte_toNat_eq_iff] using h

/-! ### The word of an ENCODE line -/

/-- The operands of the line `ENCODE a, i, bs`: 0 stands for each parameter that the line does not have (R52). -/
def asmOperands (a : Byte) (bs : List Byte) : EncOperands :=
  { nparam := BitVec.ofNat 3 bs.length, addr := a
    p0 := bs[0]?.getD 0, p1 := bs[1]?.getD 0, p2 := bs[2]?.getD 0, p3 := bs[3]?.getD 0 }

theorem asmEncode_num_eq_some_iff {a i : Nat} {ps : List Nat} {w : CmdWord} :
    asmEncode a (.num i) ps = some w ↔
      ∃ (ab ib : Byte) (bs : List Byte), ab.toNat = a ∧ ib.toNat = i ∧ bs.map BitVec.toNat = ps ∧ bs.length ≤ 4 ∧
        packEncode ib (asmOperands ab bs) = w := by
  constructor
  · intro h
    unfold asmEncode at h
    split at h
    case h_1 ab ib bs ha hi hps =>
      split at h <;> cases h
      exact ⟨ab, ib, bs, asmByte_eq_some_iff.1 ha, asmByte_eq_some_iff.1 hi, asmBytes_eq_some_iff.1 hps, ‹_›, rfl⟩
    case h_2 => cases h
  · rintro ⟨ab, ib, bs, ha, hi, hps, hlen, rfl⟩
    rw [← asmByte_eq_some_iff] at ha hi
    rw [← asmBytes_eq_some_iff] at hps
    simp [asmEncode, asmOpcode, ha, hi, hps, Config.maxParams, hlen, asmOperands]

theorem getD_map_toNat (bs : List Byte) (j : Nat) : (bs.map BitVec.toNat)[j]?.getD 0 = (bs[j]?.getD 0).toNat := by
  rw [List.getElem?_map]
  exact Option.getD_map BitVec.toNat (0 : Byte) _

theorem packEncode_reserved (v : Byte) (o : EncOperands) : (packEncode v o).extractLsb' 4 4 = 0 := by
  simp [packEncode, extract_or, extract_place_disjoint]

end Sys2Proof.Machine

namespace Sys2Proof.Claims
open Sys2Proof.Machine

/-- Settles O23: the line assembles exactly if its numbers are bytes (`asmEncode_num_eq_some_iff`), and the word has the fields
that were packed (`packEncode_fields`). -/
theorem assembledEncodeWord : Obligations.AssembledEncodeWord := by
  intro a i ps
  refine ⟨?_, ?_⟩
  · simp only [Option.isSome_iff_exists, asmEncode_num_eq_some_iff]
    rw [← exists_byte_toNat_eq_iff, ← exists_byte_toNat_eq_iff, ← exists_bytes_toNat_eq_iff]
    constructor
    · rintro ⟨_, ab, ib, bs, ha, hi, rfl, hlen, -⟩
      exact ⟨⟨ab, ha⟩, ⟨ib, hi⟩, ⟨bs, rfl⟩, by simpa using hlen⟩
    · rintro ⟨⟨ab, ha⟩, ⟨ib, hi⟩, ⟨bs, rfl⟩, hlen⟩
      exact ⟨_, ab, ib, bs, ha, hi, rfl, by simpa using hlen, rfl⟩
  · intro w hw
    obtain ⟨ab, ib, bs, rfl, rfl, rfl, hlen, rfl⟩ := asmEncode_num_eq_some_iff.1 hw
    obtain ⟨hop, hinstr, hoperands⟩ := packEncode_fields ib (asmOperands ab bs)
    obtain ⟨hn, ha, h0, h1, h2, h3⟩ := EncOperands.mk.inj hoperands
    have hcount : (BitVec.ofNat 3 bs.length).toNat = bs.length := Nat.mod_eq_of_lt (by omega : bs.length < 2 ^ 3)
    simp only [List.length_map, getD_map_toNat]
    exact ⟨hop, by rw [hn, hcount], by rw [ha], by rw [hinstr], by rw [h0], by rw [h1], by rw [h2], by rw [h3],
      packEncode_reserved _ _⟩

end Sys2Proof.Claims
end

section
/-! PROOFS. Acceptance and the host's side of it: what an idle engine does with the word on the port (R45), the host's note of a
TX_DONE (R53), and the DECODE of a QUERY (R53). -/

namespace Sys2Proof.Machine

/-! ### Acceptance (R45) -/

/-- Every instruction is an acceptance, the same in every state. -/
theorem exists_exec_eq_accept (i : Instr) : ∃ start, exec i = accept start := by
  cases i <;> exact ⟨_, rfl⟩

/-- An idle engine sees of the host's side only which word it is shown and what is left after it. -/
theorem exec_congr_of_takeCmd {s s' : State} (i : Instr) (he : s.eng = .idle) (hd : s.dstate.isReserved = false)
    (h : takeCmd s' = takeCmd s) : exec i s' = exec i s := by
  have he' : s'.eng = .idle := (congrArg State.eng h).trans he
  have hd' : s'.dstate.isReserved = false := (congrArg (·.dstate.isReserved) h).trans hd
  obtain ⟨start, hx⟩ := exists_exec_eq_accept i
  rw [hx, accept_idle start he hd, accept_idle start he' hd', h]

/-! ### The host's note of a TX_DONE (R53) -/

/-- What a step does to the host's note: acceptance clears it, the end of an operation writes it, and any other step, reset
among them, leaves it. -/
theorem step_sawTxDone {s t : State} (h : step s = .next t) :
    (Claims.AcceptsNow s ∧ t.sawTxDone = false) ∨
    (¬Claims.AcceptsNow s ∧ s.eng ≠ .idle ∧ t.eng = .idle ∧ nextTurn s ≠ .reset ∧
      t.sawTxDone = (t.res.kind == .txDone)) ∨
    (¬Claims.AcceptsNow s ∧ (nextTurn s = .reset ∨ t.eng = s.eng) ∧ t.sawTxDone = s.sawTxDone) := by
  obtain ⟨-, -, h⟩ := step_next h
  rcases h with ⟨ht, rfl⟩ | ⟨ht, he, w, hw, hx⟩ | ⟨ht, he, hx⟩ | ⟨ht, he, b, rest, -, hx⟩ | ⟨ht, he, rfl⟩ | ⟨hn, -, rfl⟩
  · exact .inr (.inr ⟨not_acceptsNow_of_turn (by simp [ht]), .inl ht, by simp⟩)
  · refine .inl ⟨⟨ht, he, by simp [hw]⟩, ?_⟩
    obtain ⟨-, -, ⟨hbusy, -⟩ | ⟨-, -, rfl⟩ | ⟨-, -, v, o, -, rfl⟩ | ⟨-, -, r, -, rfl⟩⟩ := exec_next hx
    · exact absurd (by simpa using he) hbusy
    all_goals rfl
  · have ha := not_acceptsNow_of_turn (s := s) (by simp [ht])
    obtain ⟨-, -, -, ⟨-, rfl⟩ | ⟨-, rfl⟩⟩ := txAccept_next hx
    · exact .inr (.inr ⟨ha, .inr (by simp), by simp⟩)
    · exact .inr (.inl ⟨ha, by simp [he], rfl, by simp [ht], rfl⟩)
  · have ha := not_acceptsNow_of_turn (s := s) (by simp [ht])
    obtain ⟨_, _, _, _, _, _, _, _, rfl⟩ | ⟨-, -, -, rfl⟩ := receive_next hx
    · exact .inr (.inr ⟨ha, .inr (by simp), by simp⟩)
    · exact .inr (.inl ⟨ha, by simp [he], rfl, by simp [ht], rfl⟩)
  · exact .inr (.inl ⟨not_acceptsNow_of_turn (by simp [ht]), by simp [he], rfl, by simp [ht], rfl⟩)
  · have heng : (environmentMove (nextTurn s) (popTurn s)).eng = (popTurn s).eng := by
      rw [sameBlock_environmentMove (nextTurn s) (popTurn s)]
    exact .inr (.inr ⟨not_acceptsNow_of_noEvent hn, .inr (by rw [heng, popTurn_eng]),
      by rw [environmentMove_sawTxDone, popTurn_sawTxDone]⟩)

/-! ### The DECODE of a QUERY (R53) -/

theorem hostOffer_afterTxDone_true (w : CmdWord) (q : List HostItem) :
    hostOffer true (.afterTxDone w :: q) = some (w, q) := rfl

theorem hostOffer_afterTxDone_false (w : CmdWord) (q : List HostItem) :
    hostOffer false (.afterTxDone w :: q) = hostOffer false q := rfl

/-- After a TX_DONE the word that waits for it is the one on the port. -/
theorem port_afterTxDone_shown {s : State} {w : CmdWord} {q : List HostItem}
    (hq : s.hostQueue = .afterTxDone w :: q) (hn : s.sawTxDone = true) :
    presentedCmd s = some w ∧ hostRest s = q := by
  simp [presentedCmd, hostRest, hq, hn, hostOffer_afterTxDone_true]

/-- Otherwise the port shows what it would show if the item were not there. -/
theorem presentedCmd_withQueue_of_skipped {s : State} {w : CmdWord} {q : List HostItem}
    (hq : s.hostQueue = .afterTxDone w :: q) (hn : s.sawTxDone = false) :
    presentedCmd (withQueue q s) = presentedCmd s := by
  simp [presentedCmd, withQueue, hq, hn, hostOffer_afterTxDone_false]

/-- So does an acceptance leave what it would leave if the item were not there. -/
theorem takeCmd_withQueue_of_skipped {s : State} {w : CmdWord} {q : List HostItem}
    (hq : s.hostQueue = .afterTxDone w :: q) (hn : s.sawTxDone = false) : takeCmd (withQueue q s) = takeCmd s := by
  simp [takeCmd, hostRest, withQueue, hq, hn, hostOffer_afterTxDone_false]

end Sys2Proof.Machine

namespace Sys2Proof.Claims
open Sys2Proof.Machine

/-- Settles O14: `step_host`. -/
theorem stepRunsTheDecodedInstruction : Obligations.StepRunsTheDecodedInstruction := by
  rintro s w i he ht hw rfl
  exact step_host he ht hw

/-- Settles O15: `exec_next` names what an accepting engine can do, and a busy one waits (`accept_busy`). -/
theorem onlyAnIdleEngineAccepts : Obligations.OnlyAnIdleEngineAccepts := by
  refine ⟨fun i s t ⟨he, hd⟩ h => ?_, fun i s he hd => ?_⟩
  · obtain ⟨-, -, ⟨hbusy, -⟩ | ⟨-, -, rfl⟩ | ⟨-, -, v, o, -, rfl⟩ | ⟨-, -, r, -, rfl⟩⟩ := exec_next h
    · exact absurd he hbusy
    · exact ⟨rfl, by simp⟩
    · exact ⟨rfl, by simp⟩
    · exact ⟨rfl, fun _ => ⟨rfl, rfl⟩⟩
  · obtain ⟨start, hx⟩ := exists_exec_eq_accept i
    rw [hx, accept_busy start he hd]

/-- Settles O18: the three cases of `step_sawTxDone` are the three clauses, which exclude each other. -/
theorem hostNoteFollowsTheResult : Obligations.HostNoteFollowsTheResult := by
  intro s t h
  rcases step_sawTxDone h with ⟨ha, hn⟩ | ⟨ha, he, hte, hr, hn⟩ | ⟨ha, hkept, hn⟩
  · exact ⟨fun _ => hn, fun he => absurd ha.2.1 he, fun hna => absurd ha hna⟩
  · exact ⟨fun h => absurd h ha, fun _ _ _ => hn, fun _ h => by simp [he, hte, hr] at h⟩
  · refine ⟨fun h => absurd h ha, fun he hte hr => ?_, fun _ _ => hn⟩
    rcases hkept with hreset | heng
    · exact absurd hreset hr
    · exact absurd (heng ▸ hte) he

/-- Settles O24: the waiting DECODE is on the port after a TX_DONE (`port_afterTxDone_shown`); otherwise the port and
what an acceptance leaves are as if it were not lined up, and exec sees no more than that (`exec_congr_of_takeCmd`). -/
theorem queryDecodesOnlyAfterTxDone : Obligations.QueryDecodesOnlyAfterTxDone := by
  refine ⟨fun a i ps w hw => ?expansion, fun s q ⟨he, hd⟩ hq ht => ⟨fun hn => ?shown, fun hn => ?skipped⟩, ?note⟩
  case expansion =>
    simp only [assembleLine, hw]
    rfl
  case shown =>
    obtain ⟨hw, hrest⟩ := port_afterTxDone_shown hq hn
    rw [step_host he ht hw, decodeWord_encode rfl]
    show accept startDecode (popTurn s) = _
    rw [accept_idle _ (by simpa using he) (by simpa using hd), takeCmd, hostRest_popTurn, hrest]
    rfl
  case skipped =>
    have hport := presentedCmd_withQueue_of_skipped hq hn
    refine ⟨hport.symm, fun hsome => ?_⟩
    obtain ⟨w, hw⟩ := Option.ne_none_iff_exists'.1 hsome
    have htake : takeCmd (popTurn (withQueue q s)) = takeCmd (popTurn s) := by
      rw [popTurn_withQueue]
      exact takeCmd_withQueue_of_skipped (by simpa using hq) (by simpa using hn)
    calc step s = exec (decodeWord w) (popTurn s) := step_host he ht hw
      _ = exec (decodeWord w) (popTurn (withQueue q s)) :=
        (exec_congr_of_takeCmd _ (by simpa using he) (by simpa using hd) htake).symm
      _ = step (withQueue q s) := (step_host (s := withQueue q s) he ht (hport.trans hw)).symm
  case note =>
    intro s h hv
    simp [h.noteOfResult hv]

end Sys2Proof.Claims
end

section
/-! PROOFS. The bytes of a frame (R37, R56) and the checksum (R54, R55). -/

namespace Sys2Proof.Machine

/-! ### The bytes of a frame (R37, R56) -/

theorem frame_eq_cons (a i : Byte) (ps : List Byte) :
    frame a i ps = 0x55 :: 0x55 :: a :: BitVec.ofNat 8 (3 + ps.length) :: i :: (ps ++ [chk (frameBody a i ps)]) := rfl

/-! ### The checksum (R54, R55) -/

theorem chk_toNat (bs : List Byte) : (chk bs).toNat = 255 - byteSum bs % 256 :=
  Nat.mod_eq_of_lt (by omega : 255 - byteSum bs % 256 < 2 ^ 8)

theorem chk_eq_not (bs : List Byte) : chk bs = ~~~(BitVec.ofNat 8 (byteSum bs)) := by
  apply BitVec.eq_of_toNat_eq
  rw [chk_toNat, BitVec.toNat_not, BitVec.toNat_ofNat]

/-- An 8-bit accumulator that wraps on every addition holds the sum's low byte (R55). -/
theorem foldl_add_eq_ofNat_byteSum (bs : List Byte) (acc : Byte) :
    bs.foldl (· + ·) acc = acc + BitVec.ofNat 8 (byteSum bs) := by
  induction bs generalizing acc with
  | nil => simp
  | cons b bs ih =>
    rw [List.foldl_cons, ih, byteSum_cons, BitVec.ofNat_add, BitVec.ofNat_toNat, BitVec.setWidth_eq, BitVec.add_assoc]

/-- The largest sum of a header and at most four parameters, by the largest address, length byte and instruction byte. -/
theorem byteSum_body_le {a len i : Byte} {ps : List Byte} (hl : len.toNat ≤ 7) (hps : ps.length ≤ 4) :
    byteSum ([a, len, i] ++ ps) ≤ a.toNat + i.toNat + 1027 := by
  have hsum := byteSum_le ps
  simp only [byteSum_append, byteSum_cons, byteSum_nil]
  omega

theorem byteSum_frameBody_le {a i : Byte} {ps : List Byte} (ha : a.toNat ≤ 254) (hi : isValidOpcode i = true)
    (hps : ps.length ≤ 4) : byteSum (frameBody a i ps) ≤ 1317 := by
  have hlen : (BitVec.ofNat 8 (Config.lenBias + ps.length)).toNat ≤ 7 := by
    simp [Config.lenBias]
    omega
  have hinstr : i.toNat ≤ 36 := by
    rw [isValidOpcode_iff] at hi
    omega
  have hbody : byteSum (frameBody a i ps) ≤ a.toNat + i.toNat + 1027 := byteSum_body_le hlen hps
  omega

theorem byteSum_wellSized_le {a len i : Byte} {ps : List Byte} (h : WellSized len ps) :
    byteSum ([a, len, i] ++ ps) ≤ 1537 := by
  obtain ⟨hl, hps⟩ := h
  simp only [Config.maxRxLen, Config.lenBias] at hl hps
  have hbody : byteSum ([a, len, i] ++ ps) ≤ a.toNat + i.toNat + 1027 := byteSum_body_le hl (by omega)
  have ha := a.isLt
  have hi := i.isLt
  omega

end Sys2Proof.Machine

namespace Sys2Proof.Claims
open Sys2Proof.Machine

/-- Settles O10: the frame written out byte by byte (`frame_eq_cons`), its parameters between the header and the checksum. -/
theorem frameLayout : Obligations.FrameLayout := by
  intro a i ps _
  refine ⟨frame_length a i ps, rfl, rfl, rfl, rfl, rfl, fun j hj => ?parameter, ?checksum⟩
  case parameter => simp [frame_eq_cons, Nat.add_comm 5, List.getElem?_append_left hj]
  case checksum => simp [frame_eq_cons, Nat.add_comm 5, frameBody, Config.lenBias]

/-- Settles O25: the checksum as a number (`chk_toNat`) and as a complement (`chk_eq_not`), the wrapping accumulator
(`foldl_add_eq_ofNat_byteSum`), and the bounds from the largest value of each byte. -/
theorem checksumIdentities : Obligations.ChecksumIdentities := by
  refine ⟨chk_toNat, fun s => ⟨chk_eq_not s, ?xor⟩, fun s => ?sum, fun s s' h => ?congruent, fun s => ?accumulator,
    fun a i ps => byteSum_frameBody_le, rfl, fun a len i ps => byteSum_wellSized_le, rfl⟩
  case xor => exact (chk_eq_not s).trans BitVec.xor_allOnes.symm
  case sum =>
    rw [chk_toNat]
    omega
  case congruent => rw [chk, chk, h]
  case accumulator => rw [foldl_add_eq_ofNat_byteSum, zero_add, chk_eq_not]

end Sys2Proof.Claims
end

section
/-! PROOFS. The acceptance of an ENCODE: the frame that is put on offer (R57), the reasons of an illegal one (R58), and what no
acceptance changes. -/

namespace Sys2Proof.Machine

/-! ### The frame on offer (R18, R57) -/

theorem encodeCommand_legal {v : Byte} {o : EncOperands} {s : State} (hs : Accepting s) (ho : LegalOperands o)
    (hv : isValidOpcode v = true) : encodeCommand v o s = .next (Claims.frameOnOffer v o s) := by
  obtain ⟨he, hd⟩ := hs
  obtain ⟨ha, hn⟩ := ho
  rw [encodeCommand, accept_idle _ he hd, startEncode_legal _ ((encodeCheck_eq_zero_iff _ _ _).2 ⟨ha, hv, hn⟩)]
  rfl

theorem frameOnOffer_txBuf (v : Byte) {o : EncOperands} (s : State) (ho : LegalOperands o) :
    (Claims.frameOnOffer v o s).txBuf.toList =
      frame o.addr v (params o) ++ s.txBuf.toList.drop (o.nparam.toNat + 6) := by
  have hlen : (frame o.addr v (params o)).length = o.nparam.toNat + 6 := by rw [frame_length, params_length o ho.2]
  rw [← hlen]
  refine writeFrame_toList _ _ ?_
  have hn : o.nparam.toNat ≤ 4 := ho.2
  omega

/-- While `ENG = ENCODE` the byte on offer is the one of `TXBUF` that `TX_I` points to. -/
theorem byteOnOffer_eq_getElem? {s : State} (he : s.eng = .encode) : byteOnOffer s = s.txBuf.toList[s.txI.toNat]? := by
  simp [byteOnOffer, he]

/-! ### The reasons of an illegal ENCODE (R58) -/

theorem encodeCheck_bits (a i : Byte) (np : BitVec 3) :
    ((encodeCheck a i np).getLsbD 0 = true ↔ a.toNat = 255) ∧
    ((encodeCheck a i np).getLsbD 1 = true ↔ isValidOpcode i = false) ∧
    ((encodeCheck a i np).getLsbD 2 = true ↔ 4 < np.toNat) := by
  have ha : Config.maxAddr < a.toNat ↔ a.toNat = 255 := by
    have := a.isLt
    simp only [Config.maxAddr]
    omega
  have hn : Config.maxParams < np.toNat ↔ 4 < np.toNat := .rfl
  have hbit (j : Nat) (c : Prop) [Decidable c] (x y : BitVec 3) :
      (if c then x else y).getLsbD j = if c then x.getLsbD j else y.getLsbD j := apply_ite (·.getLsbD j) c x y
  simp only [encodeCheck, BitVec.getLsbD_or, hbit, ha, hn]
  simp [badAddr, badInstr, badNParam]

/-- An ENCODE that R58 does not accept completes at once with its reasons. -/
theorem encodeCommand_illegal {v : Byte} {o : EncOperands} {s : State} (hs : Accepting s)
    (h : encodeCheck o.addr v o.nparam ≠ 0) :
    encodeCommand v o s =
      .next { takeCmd s with
              res := (CodecError.encodingError (encodeCheck o.addr v o.nparam)).result, resValid := true } := by
  obtain ⟨he, hd⟩ := hs
  rw [encodeCommand, accept_idle _ he hd, startEncode_illegal _ h]
  simp [raise, complete, CodecError.result, he]

end Sys2Proof.Machine

namespace Sys2Proof.Claims
open Sys2Proof.Machine

/-- Settles O26: legal operands pass the check (`encodeCommand_legal`), and the buffer begins with the frame. -/
theorem encodeBuildsItsFrame : Obligations.EncodeBuildsItsFrame := by
  intro v o s hs ho hv
  have hbuf := frameOnOffer_txBuf v s ho
  refine ⟨encodeCommand_legal hs ho hv, ?_, hbuf⟩
  rw [byteOnOffer_eq_getElem? rfl, hbuf]
  rfl

/-- Settles O27: the check fails (`encodeCheck_eq_zero_iff`), so the ENCODE reports it (`encodeCommand_illegal`), one bit for
each condition (`encodeCheck_bits`). -/
theorem illegalEncodeReportsEveryReason : Obligations.IllegalEncodeReportsEveryReason := by
  intro w s hop hs hillegal
  refine ⟨encodeCheck (cmdAddr w) (cmdInstr w) (cmdNParam w), ⟨false, ?_⟩, encodeCheck_bits _ _ _⟩
  rw [exec_decodeWord_encode hop, encodeCommand_illegal hs (mt (encodeCheck_eq_zero_iff _ _ _).1 hillegal)]
  rfl

/-- Settles O49: `exec_next` names what an instruction can do at acceptance, and in each case these fields are seen to stay. -/
theorem acceptanceFrame : Obligations.AcceptanceFrame := by
  intro i s t h
  obtain ⟨-, -, ⟨-, rfl⟩ | ⟨-, rfl, rfl⟩ | ⟨-, hi, v, o, -, rfl⟩ | ⟨-, hi, r, -, rfl⟩⟩ := exec_next h
  case inl => simp
  case inr.inl => simp
  case inr.inr.inl => simp [hi]
  case inr.inr.inr => simp [hi]

end Sys2Proof.Claims
end

section
/-! PROOFS. One byte taken by the sink (R59), and the last one, which completes the ENCODE (R60). -/

namespace Sys2Proof.Machine

@[simp] theorem txByte_popTurn (s : State) (j : Nat) : txByte (popTurn s) j = txByte s j := by simp [txByte]

@[simp] theorem txDoneResult_popTurn (s : State) : txDoneResult (popTurn s) = txDoneResult s := by simp [txDoneResult]

/-- The engine sends, its counters are in R15's ranges, and the sink accepts the byte on offer next. -/
structure SinkAccepts (s : State) : Prop where
  sends : s.eng = .encode
  legal : s.dstate.isReserved = false
  turn : nextTurn s = .txAccept
  count : 6 ≤ s.txN.toNat ∧ s.txN.toNat ≤ 10
  index : s.txI.toNat < s.txN.toNat

/-- The step in which the sink takes a byte, by whether another one follows (R59, R60). -/
theorem SinkAccepts.step_eq {s : State} (h : SinkAccepts s) :
    step s =
      if s.txI.toNat + 1 < s.txN.toNat then
        .next { popTurn s with txSink := s.txSink ++ [txByte s s.txI.toNat], txI := s.txI + 1 }
      else
        .next { popTurn s with
                txSink := s.txSink ++ [txByte s s.txI.toNat], txI := 0, eng := .idle, resValid := true
                res := txDoneResult s, sawTxDone := true } := by
  have hrange : ¬(s.txN.toNat < 6 ∨ 10 < s.txN.toNat ∨ 9 < s.txI.toNat) := by
    have := h.count
    have := h.index
    omega
  rw [step_txAccept h.sends h.legal h.turn]
  simp only [txAccept, popTurn_txN, popTurn_txI, popTurn_txSink, txByte_popTurn, txDoneResult_popTurn, if_neg hrange]
  rfl

/-- A byte that is not the last leaves the next one on offer. -/
theorem SinkAccepts.step_more {s : State} (h : SinkAccepts s) (hi : s.txI.toNat + 1 < s.txN.toNat) :
    step s = .next { popTurn s with txSink := s.txSink ++ [txByte s s.txI.toNat], txI := s.txI + 1 } := by
  rw [h.step_eq, if_pos hi]

/-- The last byte completes the ENCODE. -/
theorem SinkAccepts.step_last {s : State} (h : SinkAccepts s) (hi : s.txI.toNat + 1 = s.txN.toNat) :
    step s =
      .next { popTurn s with
              txSink := s.txSink ++ [txByte s s.txI.toNat], txI := 0, eng := .idle, resValid := true
              res := txDoneResult s, sawTxDone := true } := by
  rw [h.step_eq, if_neg (by omega)]

theorem SinkAccepts.byteOnOffer_eq {s : State} (h : SinkAccepts s) : byteOnOffer s = some (txByte s s.txI.toNat) := by
  have hi : s.txI.toNat < 10 := h.index.trans_le h.count.2
  simp [byteOnOffer, txByte, h.sends, hi]

/-- Parameter `j` of a TX_DONE is byte `5 + j` of `TXBUF`, or 0 from the number of parameters on (R49, R60). -/
theorem paramOrZero_txBuf (s : State) (j : Nat) :
    paramOrZero (s.txBuf.toList.drop 5) (s.txN.toNat - 6) j = if 6 + j < s.txN.toNat then txByte s (5 + j) else 0 := by
  have hj : j < s.txN.toNat - 6 ↔ 6 + j < s.txN.toNat := by omega
  simp [paramOrZero, txByte, hj]

end Sys2Proof.Machine

namespace Sys2Proof.Claims
open Sys2Proof.Machine

/-- Settles O28: the two cases of a byte that the sink takes (`step_more`, `step_last`). -/
theorem sinkTakesTheByteOnOffer : Obligations.SinkTakesTheByteOnOffer := by
  refine ⟨fun s he hd ht h6 h10 hi => ?_, fun s => enabledEvent_txAccept_eq_none⟩
  have h : SinkAccepts s := ⟨he, hd, ht, ⟨h6, h10⟩, hi⟩
  refine ⟨txByte s s.txI.toNat, h.byteOnOffer_eq, fun hmore => ?_, fun hlast => ⟨_, h.step_last hlast, rfl, rfl⟩⟩
  rw [h.step_more hmore, BitVec.ofNat_add, BitVec.ofNat_toNat, BitVec.setWidth_eq]
  rfl

/-- Settles O29: `step_last`, and the result read back from `TXBUF` (`paramOrZero_txBuf`). -/
theorem lastByteCompletesTheEncode : Obligations.LastByteCompletesTheEncode := by
  intro s he hd ht h6 h10 hlast
  have h : SinkAccepts s := ⟨he, hd, ht, ⟨h6, h10⟩, by omega⟩
  refine ⟨true, ?_⟩
  have hi : s.txI.toNat = s.txN.toNat - 1 := by omega
  rw [h.step_last hlast, hi]
  simp [txDoneResult, paramOrZero_txBuf]

end Sys2Proof.Claims
end

section
/-! PROOFS. A sink that does not accept: the ENCODE waits with its byte on offer (R63). -/

namespace Sys2Proof.Machine

/-! ### What a state with the same block shares, and what the host reads of a busy engine (R22) -/

section SameBlock
variable {s t u : State}

theorem sameBlock_trans (h : Claims.SameBlock s t) (h' : Claims.SameBlock t u) : Claims.SameBlock s u := by
  unfold Claims.SameBlock
  rw [h', h]

theorem eng_of_sameBlock (h : Claims.SameBlock s t) : t.eng = s.eng := by rw [h]

theorem dstate_of_sameBlock (h : Claims.SameBlock s t) : t.dstate = s.dstate := by rw [h]

theorem resValid_of_sameBlock (h : Claims.SameBlock s t) : t.resValid = s.resValid := by rw [h]

theorem byteOnOffer_of_sameBlock (h : Claims.SameBlock s t) : byteOnOffer t = byteOnOffer s := by
  rw [h]
  rfl

end SameBlock

theorem ready_of_busy {s : State} (h : s.eng ≠ .idle) : ready s = false := by simpa [ready] using h

theorem status_of_busy {s : State} (h : s.eng ≠ .idle) (hv : s.resValid = false) : status s = 0 := by
  simp [status, place, ready_of_busy h, hv]

/-! ### Turns without an event (R63) -/

/-- While an ENCODE is in progress only the sink and reset have an event (R63). -/
theorem enabledEvent_of_sending {s : State} {x : Turn} (he : s.eng = .encode) (hx : x ≠ .txAccept) (hr : x ≠ .reset) :
    enabledEvent x s = none := by
  cases x <;> simp_all [enabledEvent]

theorem environmentMove_txSink (x : Turn) (s : State) : (environmentMove x s).txSink = s.txSink := by
  cases x <;> rfl

theorem environmentMove_schedule (x : Turn) (s : State) : (environmentMove x s).schedule = s.schedule := by
  cases x <;> rfl

/-- However many turns pass in which the sink does not accept, the block stays as it is. -/
theorem run_stalled {stalled turns : List Turn} {s : State} (hx : ∀ x ∈ stalled, x ≠ .txAccept ∧ x ≠ .reset)
    (he : s.eng = .encode) (hd : s.dstate.isReserved = false) (hs : s.schedule = stalled ++ turns) :
    ∃ t, core.run stalled.length s = .next t ∧ Claims.SameBlock s t ∧ t.txSink = s.txSink ∧ t.schedule = turns := by
  induction stalled generalizing s with
  | nil => exact ⟨s, rfl, rfl, rfl, hs⟩
  | cons x xs ih =>
    obtain ⟨⟨hacc, hreset⟩, hxs⟩ := List.forall_mem_cons.1 hx
    have hstep : step s = .next (environmentMove x (popTurn s)) :=
      step_of_noEvent (by simp [he]) hd (nextTurn_cons hs) (enabledEvent_of_sending (by simpa using he) hacc hreset)
    have hblock : Claims.SameBlock s (environmentMove x (popTurn s)) :=
      sameBlock_trans (sameBlock_popTurn s) (sameBlock_environmentMove x _)
    have hsched : (environmentMove x (popTurn s)).schedule = xs ++ turns := by
      rw [environmentMove_schedule, popTurn_cons hs]
      rfl
    obtain ⟨t, hrun, ht, hsink, hturns⟩ := ih hxs ((eng_of_sameBlock hblock).trans he)
      (by rw [dstate_of_sameBlock hblock, hd]) hsched
    refine ⟨t, (run_succ hstep _).trans hrun, sameBlock_trans hblock ht, ?_, hturns⟩
    rw [hsink, environmentMove_txSink, popTurn_txSink]

end Sys2Proof.Machine

namespace Sys2Proof.Claims
open Sys2Proof.Machine

/-- Settles O31: `run_stalled`, and what the host reads is a function of the block, which stays. -/
theorem stalledSinkWaits : Obligations.StalledSinkWaits := by
  intro stalled turns s hx he hd hs
  obtain ⟨t, hrun, hblock, hsink, hturns⟩ := run_stalled hx he hd hs
  have het : t.eng = .encode := (eng_of_sameBlock hblock).trans he
  have hbusy : t.eng ≠ .idle := by simp [het]
  exact ⟨t, hrun, hblock, hsink, hturns, het, byteOnOffer_of_sameBlock hblock, ready_of_busy hbusy,
    fun hv => status_of_busy hbusy ((resValid_of_sameBlock hblock).trans hv)⟩

end Sys2Proof.Claims
end

section
/-! PROOFS. The whole ENCODE (R57 to R60, R142): its command word is accepted, the bytes of `TXBUF` leave one turn each, and the
last one completes it. -/

namespace Sys2Proof.Machine

/-! ### The bytes of `TXBUF` on the wire (R59) -/

theorem run_snoc {s t u : State} {k : Nat} (h : core.run k s = .next t) (hs : step t = .next u) :
    core.run (k + 1) s = .next u :=
  (run_add h 1).trans (run_succ hs 0)

/-- The state once the sink has taken the first `k` bytes of `TXBUF`, one turn each, and more are to come. -/
def afterBytes (k : Nat) (s : State) : State :=
  { s with
    txSink := s.txSink ++ s.txBuf.toList.take k, txI := BitVec.ofNat 4 k, schedule := s.schedule.drop k }

theorem afterBytes_zero {s : State} (hi : s.txI = 0) : afterBytes 0 s = s := by
  rw [afterBytes, show BitVec.ofNat 4 0 = s.txI from hi.symm]
  simp

theorem popTurn_afterBytes {s : State} {k : Nat} {x : Turn} (h : s.schedule[k]? = some x) :
    popTurn (afterBytes k s) = { afterBytes k s with schedule := s.schedule.drop (k + 1) } := by
  obtain ⟨hk, -⟩ := List.getElem?_eq_some_iff.1 h
  exact popTurn_cons (List.drop_eq_getElem_cons hk)

/-- An ENCODE is in progress, its counters are in R15's ranges, and the sink has taken no byte yet. -/
structure FirstByteOnOffer (s : State) : Prop where
  sends : s.eng = .encode
  legal : s.dstate.isReserved = false
  count : 6 ≤ s.txN.toNat ∧ s.txN.toNat ≤ 10
  first : s.txI = 0

section FirstBytes
variable {s : State} {k : Nat} (h : FirstByteOnOffer s) (hk : k < s.txN.toNat)
include h hk

theorem FirstByteOnOffer.afterBytes_txI : (afterBytes k s).txI.toNat = k := by
  have hn := h.count
  exact Nat.mod_eq_of_lt (by omega : k < 2 ^ 4)

theorem FirstByteOnOffer.sinkAccepts (ht : s.schedule[k]? = some .txAccept) : SinkAccepts (afterBytes k s) where
  sends := h.sends
  legal := h.legal
  turn := by simp [nextTurn, afterBytes, ht]
  count := h.count
  index := by
    rw [h.afterBytes_txI hk]
    exact hk

/-- The bytes that the sink has once it takes byte `k` too. -/
theorem FirstByteOnOffer.txSink_snoc :
    (afterBytes k s).txSink ++ [txByte (afterBytes k s) k] = s.txSink ++ s.txBuf.toList.take (k + 1) := by
  have hk10 : k < 10 := by
    have hn := h.count
    omega
  simp [afterBytes, txByte, List.take_add_one, hk10]

end FirstBytes

/-- While the sink accepts turn after turn, it has taken one byte for each turn. -/
theorem FirstByteOnOffer.run_eq {s : State} (h : FirstByteOnOffer s) {k : Nat} (hk : k < s.txN.toNat)
    (hs : ∀ j < k, s.schedule[j]? = some .txAccept) : core.run k s = .next (afterBytes k s) := by
  induction k with
  | zero => rw [afterBytes_zero h.first, run_zero]
  | succ k ih =>
    have hk' : k < s.txN.toNat := by omega
    have hturn := hs k (by omega)
    have hstep := (h.sinkAccepts hk' hturn).step_more (by rwa [h.afterBytes_txI hk'])
    rw [h.afterBytes_txI hk', h.txSink_snoc hk', popTurn_afterBytes hturn] at hstep
    refine run_snoc (ih hk' fun j hj => hs j (by omega)) (hstep.trans ?_)
    rw [afterBytes, afterBytes, BitVec.ofNat_add]
    rfl

/-- The turn after the other bytes takes the last one, and the ENCODE completes with what is in `TXBUF`. -/
theorem FirstByteOnOffer.run_all {s : State} (h : FirstByteOnOffer s)
    (hs : ∀ j < s.txN.toNat, s.schedule[j]? = some .txAccept) :
    core.run s.txN.toNat s =
      .next { s with
              txSink := s.txSink ++ s.txBuf.toList.take s.txN.toNat, txI := 0, eng := .idle, resValid := true
              res := txDoneResult s, sawTxDone := true, schedule := s.schedule.drop s.txN.toNat } := by
  obtain ⟨k, hk⟩ := Nat.exists_eq_add_of_le' (show 1 ≤ s.txN.toNat from le_trans (by omega) h.count.1)
  have hk' : k < s.txN.toNat := by omega
  have hturn := hs k hk'
  have hstep := (h.sinkAccepts hk' hturn).step_last (by rw [h.afterBytes_txI hk']; exact hk.symm)
  rw [h.afterBytes_txI hk', h.txSink_snoc hk', popTurn_afterBytes hturn] at hstep
  rw [hk]
  exact run_snoc (h.run_eq hk' fun j hj => hs j (by omega)) hstep

/-! ### The accepting step (R45, R57) -/

theorem step_accepts_encode {s : State} {w : CmdWord} {q : List HostItem} {ts : List Turn} (hs : Accepting s)
    (hop : cmdOp w = 0) (ho : LegalOperands (cmdOperands w)) (hv : isValidOpcode (cmdInstr w) = true)
    (hq : s.hostQueue = .word w :: q) (ht : s.schedule = .host :: ts) :
    step s = .next (Claims.frameOnOffer (cmdInstr w) (cmdOperands w) { s with schedule := ts }) := by
  have hw : presentedCmd s = some w := by simp [presentedCmd, hq, hostOffer]
  rw [step_host hs.1 (nextTurn_cons ht) hw, popTurn_cons ht, exec_decodeWord_encode hop]
  exact encodeCommand_legal hs ho hv

theorem frameOnOffer_txN (v : Byte) {o : EncOperands} (s : State) (ho : LegalOperands o) :
    (Claims.frameOnOffer v o s).txN.toNat = o.nparam.toNat + 6 := by
  have hn : o.nparam.toNat ≤ 4 := ho.2
  exact Nat.mod_eq_of_lt (by omega : o.nparam.toNat + 6 < 2 ^ 4)

theorem firstByteOnOffer_frameOnOffer (v : Byte) {o : EncOperands} {s : State} (ho : LegalOperands o)
    (hs : Accepting s) : FirstByteOnOffer (Claims.frameOnOffer v o s) where
  sends := rfl
  legal := hs.2
  count := by
    have hn : o.nparam.toNat ≤ 4 := ho.2
    rw [frameOnOffer_txN v s ho]
    omega
  first := rfl

/-- The first bytes of `TXBUF` are those of the frame. -/
theorem frameOnOffer_txBuf_take (v : Byte) {o : EncOperands} (s : State) (ho : LegalOperands o) {k : Nat}
    (hk : k ≤ o.nparam.toNat + 6) :
    (Claims.frameOnOffer v o s).txBuf.toList.take k = (frame o.addr v (params o)).take k := by
  rw [frameOnOffer_txBuf v s ho]
  exact List.take_append_of_le_length (by rwa [frame_length, params_length o ho.2])

theorem frameOnOffer_txBuf_take_all (v : Byte) {o : EncOperands} (s : State) (ho : LegalOperands o) :
    (Claims.frameOnOffer v o s).txBuf.toList.take (o.nparam.toNat + 6) = frame o.addr v (params o) := by
  rw [frameOnOffer_txBuf_take v s ho le_rfl]
  exact List.take_of_length_le (by rw [frame_length, params_length o ho.2])

/-- What the TX_DONE of the frame on offer will report (R60). -/
theorem txDoneResult_frameOnOffer (v : Byte) {o : EncOperands} (s : State) (ho : LegalOperands o) :
    txDoneResult (Claims.frameOnOffer v o s) =
      Claims.frameReport .txDone o.addr (BitVec.ofNat 8 (3 + o.nparam.toNat)) v (params o)
        (chk ([o.addr, BitVec.ofNat 8 (3 + o.nparam.toNat), v] ++ params o)) := by
  have hlen := params_length o ho.2
  have hn := frameOnOffer_txN v s ho
  rw [txDoneResult_of_frame (by rw [hn, hlen]) (by rw [hn, frameOnOffer_txBuf_take_all v s ho]), frameBody, hlen]
  rfl

end Sys2Proof.Machine

namespace Sys2Proof.Claims
open Sys2Proof.Machine

/-- Settles O30: the accepting step puts the frame on offer (`step_accepts_encode`), and then the sink takes its bytes
(`FirstByteOnOffer.run_eq`), the last of which completes the ENCODE (`FirstByteOnOffer.run_all`). -/
theorem encodeSendsExactlyItsFrame : Obligations.EncodeSendsExactlyItsFrame := by
  intro s w q turns hs hop ho hv hq ht
  have hstep := step_accepts_encode hs hop ho hv hq ht
  set n := (cmdNParam w).toNat
  set t₀ := frameOnOffer (cmdInstr w) (cmdOperands w)
    { s with schedule := List.replicate (n + 6) .txAccept ++ turns }
  have hready : FirstByteOnOffer t₀ := firstByteOnOffer_frameOnOffer _ ho hs
  have hn : t₀.txN.toNat = n + 6 := frameOnOffer_txN _ _ ho
  have hturns : ∀ j < n + 6, t₀.schedule[j]? = some .txAccept := fun j hj => by
    show (List.replicate (n + 6) Turn.txAccept ++ turns)[j]? = _
    simp [List.getElem?_append_left, hj]
  refine ⟨?done, fun k hk => ?sending⟩
  case done =>
    have hrun := hready.run_all (by rwa [hn])
    rw [hn] at hrun
    refine ⟨_, (run_succ hstep _).trans hrun, ?_, rfl, rfl, txDoneResult_frameOnOffer _ _ ho, rfl, ?_, ?_, rfl⟩
    · exact congrArg (s.txSink ++ ·) (frameOnOffer_txBuf_take_all _ _ ho)
    · show hostRest _ = q
      simp [hostRest, hq, hostOffer]
    · exact List.drop_left' (List.length_replicate ..)
  case sending =>
    have hrun := hready.run_eq (by rwa [hn]) fun j hj => hturns j (hj.trans hk)
    refine ⟨_, (run_succ hstep k).trans hrun, rfl, status_of_busy nofun rfl, ?_⟩
    exact congrArg (s.txSink ++ ·) (frameOnOffer_txBuf_take _ _ ho hk.le)

end Sys2Proof.Claims
end

section
/-! PROOFS. One byte received: what it does in each state of the decoder (R65 to R73), the read call that is then outstanding
(R76), and the two ways a DECODE ends (R72, R77). -/

namespace Sys2Proof.Machine

/-! ### A byte that is delivered, by the state of the decoder (R65 to R72) -/

/-- The state that a delivered byte is received in: the turn is taken, and `rest` stays in the RX source (R30). -/
def delivered (rest : List Byte) (s : State) : State := { popTurn s with rxSource := rest }

section Delivered
variable (rest : List Byte) (s : State)

@[simp] theorem delivered_rxAddr : (delivered rest s).rxAddr = s.rxAddr := popTurn_rxAddr s
@[simp] theorem delivered_rxLen : (delivered rest s).rxLen = s.rxLen := popTurn_rxLen s
@[simp] theorem delivered_rxInstr : (delivered rest s).rxInstr = s.rxInstr := popTurn_rxInstr s
@[simp] theorem delivered_rxHi : (delivered rest s).rxHi = s.rxHi := popTurn_rxHi s
@[simp] theorem delivered_rxNp : (delivered rest s).rxNp = s.rxNp := popTurn_rxNp s
@[simp] theorem delivered_rxPi : (delivered rest s).rxPi = s.rxPi := popTurn_rxPi s
@[simp] theorem delivered_rxP : (delivered rest s).rxP = s.rxP := popTurn_rxP s

end Delivered

section Delivers
variable {s : State} {d : DState} {b : Byte} {rest : List Byte} (h : Delivers s d b rest)
include h

theorem Delivers.eng_delivered : (delivered rest s).eng = .decode := by
  obtain ⟨he, -, -, -⟩ := h
  exact (popTurn_eng s).trans he

theorem Delivers.dstate_delivered : (delivered rest s).dstate = d := by
  obtain ⟨-, hd, -, -⟩ := h
  exact (popTurn_dstate s).trans hd

/-- The step that delivers a byte is the decoder's work on it. -/
theorem Delivers.step_eq (hd : d.isReserved = false) : step s = receive b (delivered rest s) := by
  obtain ⟨he, rfl, ht, hb⟩ := h
  exact step_rx he hd ht hb

end Delivers

section Receive
variable {s : State} {b : Byte}

theorem receive_firstMarker (hd : s.dstate = .seekMarker1) :
    receive 0x55 s = .next { s with dstate := .seekMarker2 } := by
  rw [receive, hd]
  rfl

theorem receive_secondMarker (hd : s.dstate = .seekMarker2) :
    receive 0x55 s = .next { clearCapture s with dstate := .readHeader } := by
  rw [receive, hd]
  rfl

/-- In both marker states any other byte is discarded, and the search starts again. -/
theorem receive_noMarker (hd : s.dstate = .seekMarker1 ∨ s.dstate = .seekMarker2) (hb : b ≠ 0x55) :
    receive b s = .next { s with dstate := .seekMarker1 } := by
  have hb : b ≠ Config.marker := hb
  rcases hd with hd | hd
  · simp only [receive, hd, rxSeekMarker1, if_neg hb]
    rw [← hd]
  · simp only [receive, hd, rxSeekMarker2, if_neg hb]

theorem receive_header_address (hd : s.dstate = .readHeader) (hhi : s.rxHi = 0) :
    receive b s = .next { s with rxAddr := b, rxHi := 1 } := by
  simp [receive, hd, rxReadHeader, hhi]

theorem receive_header_length (hd : s.dstate = .readHeader) (hhi : s.rxHi = 1) :
    receive b s = .next { s with rxLen := b, rxHi := 2 } := by
  simp [receive, hd, rxReadHeader, hhi]

theorem receive_header_tooLong (hd : s.dstate = .readHeader) (hhi : s.rxHi = 2) (hl : 7 < s.rxLen.toNat) :
    receive b s = .next { s with rxInstr := b, dstate := .seekMarker1 } := by
  simp [receive, hd, rxReadHeader, hhi, lengthCheck, Config.maxRxLen, hl, discardFrame]

/-- The third header byte of a length that is accepted announces `max(L - 3, 0)` parameters. -/
theorem receive_header_announces {n : Nat} (hd : s.dstate = .readHeader) (hhi : s.rxHi = 2) (hl : s.rxLen.toNat ≤ 7)
    (hn : s.rxLen.toNat - 3 = n) :
    receive b s =
      .next { s with
              rxInstr := b, rxNp := BitVec.ofNat 3 n, rxPi := 0
              dstate := if 0 < n then .readParams else .readChecksum } := by
  simp only [receive, hd, rxReadHeader, hhi, BitVec.reduceToNat, lengthCheck, Config.maxRxLen, Config.lenBias, hn,
    if_neg (Nat.not_lt.2 hl)]
  split <;> rfl

/-- Parameter `k` is stored, and it is the last one if `k + 1` are announced. -/
theorem receive_parameter {k n : Nat} (hd : s.dstate = .readParams) (hpi : s.rxPi.toNat = k) (hnp : s.rxNp.toNat = n)
    (hk : k < 4) :
    receive b s =
      .next { s with
              rxP := s.rxP.setIfInBounds k b, rxPi := BitVec.ofNat 3 (k + 1)
              dstate := if k + 1 = n then .readChecksum else .readParams } := by
  have hnext : s.rxPi + 1 = BitVec.ofNat 3 (k + 1) := by
    rw [BitVec.ofNat_add, ← hpi, BitVec.ofNat_toNat, BitVec.setWidth_eq]
    rfl
  simp only [receive, hd, rxReadParams, hpi, hnp, hnext, if_neg (show ¬3 < k by omega)]
  split
  · rfl
  · rw [← hd]

theorem receive_checksum_right (hd : s.dstate = .readChecksum) (hn : s.rxNp.toNat ≤ 4)
    (hb : b = chk (capturedBody s)) :
    receive b s =
      .next { s with
              res := frameResult b s, resValid := true, eng := .idle, dstate := .seekMarker1, sawTxDone := false } := by
  simp only [receive, hd, rxReadChecksum, if_neg (Nat.not_lt.2 hn), if_pos hb]
  rfl

theorem receive_checksum_wrong (hd : s.dstate = .readChecksum) (hn : s.rxNp.toNat ≤ 4)
    (hb : b ≠ chk (capturedBody s)) : receive b s = .next { s with dstate := .seekMarker1 } := by
  simp only [receive, hd, rxReadChecksum, if_neg (Nat.not_lt.2 hn), if_neg hb]
  rfl

theorem lengthCheck_dstate_ne_seekMarker2 (s : State) : (lengthCheck s).dstate ≠ .seekMarker2 := by
  unfold lengthCheck
  split
  · simp
  · dsimp only
    split <;> simp

/-- Only a marker byte leads to SEEK_MARKER_2 (R65, R66, R80). -/
theorem eq_marker_of_receive_seekMarker2 {t : State} (h : receive b s = .next t) (ht : t.dstate = .seekMarker2) :
    b = 0x55 := by
  by_contra hb
  have hnoMarker (hd : s.dstate = .seekMarker1 ∨ s.dstate = .seekMarker2) : False := by
    rw [receive_noMarker hd hb] at h
    cases h
    cases ht
  unfold receive at h
  split at h
  case h_1 hd => exact hnoMarker (.inl hd)
  case h_2 hd => exact hnoMarker (.inr hd)
  case h_3 hd =>
    unfold rxReadHeader at h
    split at h <;> cases h
    · simp [hd] at ht
    · simp [hd] at ht
    · exact absurd ht (lengthCheck_dstate_ne_seekMarker2 _)
  case h_4 hd =>
    unfold rxReadParams at h
    split at h
    · cases h
    · dsimp only at h
      split at h <;> cases h
      · cases ht
      · simp [hd] at ht
  case h_5 hd =>
    unfold rxReadChecksum at h
    split at h
    · cases h
    · split at h <;> cases h <;> cases ht
  all_goals cases h

end Receive

/-! ### The read call outstanding (R76) -/

section ReadCall
variable {s : State} {n k : Nat} (he : s.eng = .decode)
include he

theorem readCall_oneByte (hd : s.dstate = .seekMarker1 ∨ s.dstate = .seekMarker2 ∨ s.dstate = .readChecksum) :
    readCall s = some { size := 1, received := 0 } := by
  rcases hd with hd | hd | hd <;> simp [readCall, he, hd]

theorem readCall_header (hd : s.dstate = .readHeader) :
    readCall s = some { size := 3, received := s.rxHi.toNat } := by
  simp [readCall, he, hd]

theorem readCall_parameters (hd : s.dstate = .readParams) (hnp : s.rxNp.toNat = n) (hpi : s.rxPi.toNat = k) :
    readCall s = some { size := n, received := k } := by
  simp [readCall, he, hd, hnp, hpi]

end ReadCall

/-! ### The environment's turns leave the engine alone -/

theorem environmentMove_eng (x : Turn) (s : State) : (environmentMove x s).eng = s.eng :=
  eng_of_sameBlock (sameBlock_environmentMove x s)

end Sys2Proof.Machine

namespace Sys2Proof.Claims
open Sys2Proof.Machine

/-- Settles O32: `exec` of DECODE is the acceptance of `startDecode`, and the engine is idle. -/
theorem decodeStartsInMarkerSearch : Obligations.DecodeStartsInMarkerSearch := by
  intro s ⟨he, hd⟩
  exact accept_idle startDecode he hd

/-- Settles O33: the delivered byte is the marker (`receive_firstMarker`) or is not (`receive_noMarker`). -/
theorem firstMarkerSearch : Obligations.FirstMarkerSearch := by
  intro s b rest h
  have he := h.eng_delivered
  have hd := h.dstate_delivered
  by_cases hb : b = 0x55
  · subst hb
    exact ⟨(h.step_eq rfl).trans (receive_firstMarker hd), readCall_oneByte he (.inr (.inl rfl))⟩
  · rw [if_neg hb]
    exact ⟨(h.step_eq rfl).trans (receive_noMarker (.inl hd) hb), readCall_oneByte he (.inl rfl)⟩

/-- Settles O34: the same two cases in SEEK_MARKER_2 (`receive_secondMarker`, `receive_noMarker`). -/
theorem secondMarkerSearch : Obligations.SecondMarkerSearch := by
  intro s b rest h
  have he := h.eng_delivered
  have hd := h.dstate_delivered
  refine ⟨?marker, fun hb => ?other⟩
  case marker =>
    rintro rfl
    exact ⟨(h.step_eq rfl).trans (receive_secondMarker hd), readCall_header he rfl⟩
  case other => exact ⟨(h.step_eq rfl).trans (receive_noMarker (.inr hd) hb), readCall_oneByte he (.inl rfl)⟩

/-- Settles O36: the header byte that `RX_HI` names, and for the third one the length check on `RX_LEN`. -/
theorem headerAndLengthCheck : Obligations.HeaderAndLengthCheck := by
  intro s b rest h
  have he := h.eng_delivered
  have hd := h.dstate_delivered
  have hstep := h.step_eq rfl
  refine ⟨fun hhi => ?address, fun hhi => ?length, fun hhi hl => ?tooLong, fun hhi hl hn => ?parameters,
    fun hhi hn => ?noParameters⟩
  all_goals rw [← delivered_rxHi rest] at hhi
  case address => exact ⟨hstep.trans (receive_header_address hd hhi), readCall_header he hd⟩
  case length => exact ⟨hstep.trans (receive_header_length hd hhi), readCall_header he hd⟩
  case tooLong =>
    exact ⟨hstep.trans (receive_header_tooLong hd hhi (by simpa using hl)), readCall_oneByte he (.inl rfl)⟩
  case parameters =>
    have hcount : (BitVec.ofNat 3 (s.rxLen.toNat - 3)).toNat = s.rxLen.toNat - 3 :=
      Nat.mod_eq_of_lt (by omega : s.rxLen.toNat - 3 < 2 ^ 3)
    have hx := hstep.trans (receive_header_announces hd hhi (by simpa using hl) (by rw [delivered_rxLen]))
    rw [if_pos (Nat.sub_pos_of_lt hn)] at hx
    exact ⟨hx, readCall_parameters he rfl hcount rfl⟩
  case noParameters =>
    have hl : (delivered rest s).rxLen.toNat ≤ 3 := by simpa using hn
    exact ⟨hstep.trans (receive_header_announces hd hhi (by omega) (Nat.sub_eq_zero_of_le hl)),
      readCall_oneByte he (.inr (.inr rfl))⟩

/-- Settles O37: `receive_parameter`; whether the byte is the last one decides the read call. -/
theorem parameterBytesAreStored : Obligations.ParameterBytesAreStored := by
  intro s b rest h hpi
  have he := h.eng_delivered
  have hd := h.dstate_delivered
  have hstep := (h.step_eq rfl).trans (receive_parameter hd (by rw [delivered_rxPi]) (by rw [delivered_rxNp]) hpi)
  have hnext : (BitVec.ofNat 3 (s.rxPi.toNat + 1)).toNat = s.rxPi.toNat + 1 :=
    Nat.mod_eq_of_lt (by omega : s.rxPi.toNat + 1 < 2 ^ 3)
  refine ⟨_, hstep, rfl, fun j hj => ?stored, ?awaiting⟩
  case stored =>
    show ((delivered rest s).rxP.setIfInBounds s.rxPi.toNat b)[j]? = _
    rw [delivered_rxP, Vector.getElem?_setIfInBounds, if_pos hpi]
    exact if_congr eq_comm rfl rfl
  case awaiting =>
    by_cases hlast : s.rxPi.toNat + 1 = s.rxNp.toNat
    · rw [if_pos hlast, if_pos hlast]
      exact readCall_oneByte he (.inr (.inr rfl))
    · rw [if_neg hlast, if_neg hlast]
      exact readCall_parameters he rfl (congrArg _ (delivered_rxNp rest s)) hnext

/-- Settles O38: the checksum byte is the right one (`receive_checksum_right`) or is not (`receive_checksum_wrong`). -/
theorem checksumDecidesTheFrame : Obligations.ChecksumDecidesTheFrame := by
  intro s c rest h hn ps
  have he := h.eng_delivered
  have hd := h.dstate_delivered
  have hn : (delivered rest s).rxNp.toNat ≤ 4 := by simpa using hn
  have hbody : capturedBody (delivered rest s) = [s.rxAddr, s.rxLen, s.rxInstr] ++ ps := by
    simp [capturedBody, ps]
  rw [← hbody]
  refine ⟨fun hc => ⟨false, ?right⟩, fun hc => ?wrong⟩
  case right =>
    have hres := frameResult_eq_frameReport c hn
    simp only [delivered_rxAddr, delivered_rxLen, delivered_rxInstr, delivered_rxP, delivered_rxNp] at hres
    rw [← hres]
    exact (h.step_eq rfl).trans (receive_checksum_right hd hn hc)
  case wrong => exact ⟨(h.step_eq rfl).trans (receive_checksum_wrong hd hn hc), readCall_oneByte he (.inl rfl)⟩

/-- Settles O39: in each state of the decoder, what `CaptureAgrees` says of the counters. -/
theorem readCallIsAlwaysOutstanding : Obligations.ReadCallIsAlwaysOutstanding := by
  intro s h he
  have ha := h.reading he
  have hlegal := h.dstateLegal
  cases hd : s.dstate with
  | readHeader =>
    obtain ⟨hhi, -, -⟩ := (captureAgrees_readHeader_iff hd).1 ha
    exact ⟨_, readCall_header he hd, Nat.lt_succ_of_le hhi, rfl⟩
  | readParams =>
    obtain ⟨-, -, hpi⟩ := (captureAgrees_readParams_iff hd).1 ha
    exact ⟨_, readCall_parameters he hd rfl rfl, hpi, rfl⟩
  | seekMarker1 => exact ⟨_, readCall_oneByte he (.inl hd), Nat.one_pos, rfl⟩
  | seekMarker2 => exact ⟨_, readCall_oneByte he (.inr (.inl hd)), Nat.one_pos, rfl⟩
  | readChecksum => exact ⟨_, readCall_oneByte he (.inr (.inr hd)), Nat.one_pos, rfl⟩
  | reserved5 | reserved6 | reserved7 => simp [hd, DState.isReserved] at hlegal

/-- Settles O40: `step_timeout`, and no other engine state enables the event. -/
theorem timeoutEndsTheDecode : Obligations.TimeoutEndsTheDecode :=
  ⟨fun _ he hd ht => ⟨false, step_timeout he hd ht⟩, fun _ => enabledEvent_timeout_eq_none⟩

/-- Settles O53: of the events that `step_next` names, the engine's own state leaves its byte, the timeout and reset. -/
theorem operationsEndOnlyByTheirOwnEnd : Obligations.OperationsEndOnlyByTheirOwnEnd := by
  intro s t h
  obtain ⟨-, -, h⟩ := step_next h
  refine ⟨fun he => ?decode, fun he => ?encode⟩
  case decode =>
    simp only [he, reduceCtorEq, false_and, and_false, false_or, true_and] at h
    rcases h with ⟨ht, -⟩ | ⟨ht, b, rest, -, hx⟩ | ⟨ht, rfl⟩ | ⟨-, -, rfl⟩
    · exact .inr (.inl ht)
    · obtain ⟨_, _, _, _, _, _, _, _, rfl⟩ | ⟨-, -, -, rfl⟩ := receive_next hx
      · exact .inl (by simpa using he)
      · exact .inr (.inr ⟨rfl, rfl, .inl ⟨ht, rfl⟩⟩)
    · exact .inr (.inr ⟨rfl, rfl, .inr ⟨ht, rfl⟩⟩)
    · exact .inl (by rw [environmentMove_eng, popTurn_eng, he])
  case encode =>
    simp only [he, reduceCtorEq, false_and, and_false, false_or, true_and] at h
    rcases h with ⟨ht, -⟩ | ⟨ht, hx⟩ | ⟨-, -, rfl⟩
    · exact .inr (.inl ht)
    · obtain ⟨-, -, -, ⟨-, rfl⟩ | ⟨hlast, rfl⟩⟩ := txAccept_next hx
      · exact .inl (by simpa using he)
      · exact .inr (.inr ⟨rfl, rfl, ht, rfl, by simpa using hlast⟩)
    · exact .inl (by rw [environmentMove_eng, popTurn_eng, he])

end Sys2Proof.Claims
end

section
/-! PROOFS. Whole byte sequences delivered to a DECODE: noise (R78), a frame with the right checksum (R79, R80) or a wrong one
(R81), and a lone marker byte before a frame (R67). -/

namespace Sys2Proof.Machine

/-! ### The bytes that a DECODE reads, one turn each (R30) -/

/-- `s` where `bytes` stand in the RX source in front of `rest` and are delivered by the next turns, one each; `turns`
follow. -/
def facing (bytes rest : List Byte) (turns : List Turn) (s : State) : State :=
  { s with rxSource := bytes ++ rest, schedule := List.replicate bytes.length .rxDeliver ++ turns }

/-- The delivery of `bytes` leads the block from `s` to `t`, whatever bytes and turns follow. -/
def ReadsTo (bytes : List Byte) (s t : State) : Prop :=
  ∀ rest turns, core.run bytes.length (facing bytes rest turns s) = .next (facing [] rest turns t)

theorem facing_append (xs ys rest : List Byte) (turns : List Turn) (s : State) :
    facing (xs ++ ys) rest turns s =
      facing xs (ys ++ rest) (List.replicate ys.length .rxDeliver ++ turns) s := by
  simp only [facing, List.append_assoc, List.length_append, List.replicate_add]

theorem ReadsTo.nil (s : State) : ReadsTo [] s s := fun _ _ => rfl

theorem ReadsTo.append {xs ys : List Byte} {s t u : State} (hx : ReadsTo xs s t) (hy : ReadsTo ys t u) :
    ReadsTo (xs ++ ys) s u := by
  intro rest turns
  rw [facing_append, List.length_append, run_add (hx _ _)]
  exact hy rest turns

/-- One byte, by what the decoder does with it. -/
theorem ReadsTo.of_receive {b : Byte} {s t : State} (he : s.eng = .decode) (hd : s.dstate.isReserved = false)
    (h : ∀ rest turns, receive b (facing [] rest turns s) = .next (facing [] rest turns t)) : ReadsTo [b] s t :=
  fun rest turns =>
    have hstep : step (facing [b] rest turns s) = receive b (facing [] rest turns s) := step_rx he hd rfl rfl
    run_succ (hstep.trans (h rest turns)) 0

/-- The run of a state whose RX source begins with the bytes and whose schedule delivers them. -/
theorem ReadsTo.run_eq {bytes rest : List Byte} {turns : List Turn} {s t : State} {n : Nat} (h : ReadsTo bytes s t)
    (hn : n = bytes.length) (hb : s.rxSource = bytes ++ rest) (hs : s.schedule = List.replicate n .rxDeliver ++ turns) :
    core.run n s = .next { t with rxSource := rest, schedule := turns } := by
  subst hn
  have hself : facing bytes rest turns s = s := by rw [facing, ← hb, ← hs]
  exact hself ▸ h rest turns

/-! ### The marker search and the header (R65 to R69) -/

section Search
variable {s : State} (he : s.eng = .decode) (hd : s.dstate = .seekMarker1)
include he hd

/-- Bytes without a marker leave the search as it is (R65, R78). -/
theorem readsTo_noise {noise : List Byte} (hb : ∀ b ∈ noise, b ≠ 0x55) : ReadsTo noise s s := by
  induction noise with
  | nil => exact .nil s
  | cons b bs ih =>
    obtain ⟨hb, hbs⟩ := List.forall_mem_cons.1 hb
    have hstays : { s with dstate := .seekMarker1 } = s := by rw [← hd]
    have hfirst : ReadsTo [b] s { s with dstate := .seekMarker1 } :=
      .of_receive he (by simp [hd, DState.isReserved]) fun _ _ => receive_noMarker (.inl hd) hb
    rw [hstays] at hfirst
    exact hfirst.append (ih hbs)

/-- Two marker bytes lead to READ_HEADER with the capture registers cleared (R65, R66). -/
theorem readsTo_markers : ReadsTo [0x55, 0x55] s { clearCapture s with dstate := .readHeader } := by
  have hfirst : ReadsTo [0x55] s { s with dstate := .seekMarker2 } :=
    .of_receive he (by simp [hd, DState.isReserved]) fun _ _ => receive_firstMarker hd
  have hsecond : ReadsTo [0x55] { s with dstate := .seekMarker2 } { clearCapture s with dstate := .readHeader } :=
    .of_receive he rfl fun _ _ => receive_secondMarker rfl
  exact hfirst.append hsecond

/-- The first two header bytes are the address and the length (R68). -/
theorem readsTo_addressAndLength (a len : Byte) :
    ReadsTo [0x55, 0x55, a, len] s
      { clearCapture s with dstate := .readHeader, rxAddr := a, rxLen := len, rxHi := 2 } := by
  have haddress : ReadsTo [a] { clearCapture s with dstate := .readHeader }
      { clearCapture s with dstate := .readHeader, rxAddr := a, rxHi := 1 } :=
    .of_receive he rfl fun _ _ => receive_header_address rfl rfl
  have hlength : ReadsTo [len] { clearCapture s with dstate := .readHeader, rxAddr := a, rxHi := 1 }
      { clearCapture s with dstate := .readHeader, rxAddr := a, rxLen := len, rxHi := 2 } :=
    .of_receive he rfl fun _ _ => receive_header_length rfl rfl
  exact (readsTo_markers he hd).append (haddress.append hlength)

end Search

/-! ### The header and the parameters, captured (R68 to R71) -/

/-- `RX_P` with the parameters `ps` in it, and 0 behind them. -/
def paramVector (ps : List Byte) : Vector Byte 4 := Vector.ofFn fun j => ps[j.val]?.getD 0

theorem paramVector_snoc {ps : List Byte} (b : Byte) (h : ps.length < 4) :
    paramVector (ps ++ [b]) = (paramVector ps).setIfInBounds ps.length b :=
  match ps, h with
  | [], _ | [_], _ | [_, _], _ | [_, _, _], _ => rfl

theorem paramVector_take {ps : List Byte} (h : ps.length ≤ 4) : (paramVector ps).toList.take ps.length = ps :=
  match ps, h with
  | [], _ | [_], _ | [_, _], _ | [_, _, _], _ | [_, _, _, _], _ => rfl

/-- `s` once a DECODE has read the header `a`, `len`, `i` of a frame and the parameters `ps` of those that `len` announces. -/
def captured (a len i : Byte) (ps : List Byte) (s : State) : State :=
  { s with
    dstate := if ps.length < len.toNat - 3 then .readParams else .readChecksum
    rxAddr := a, rxLen := len, rxInstr := i, rxHi := 2
    rxNp := BitVec.ofNat 3 (len.toNat - 3), rxPi := BitVec.ofNat 3 ps.length, rxP := paramVector ps }

section Captured
variable {s : State} (a : Byte) {len : Byte} (i : Byte) (he : s.eng = .decode)
include he

theorem readsTo_header (hd : s.dstate = .seekMarker1) (hl : len.toNat ≤ 7) :
    ReadsTo [0x55, 0x55, a, len, i] s (captured a len i [] s) := by
  have hinstr : ReadsTo [i] { clearCapture s with dstate := .readHeader, rxAddr := a, rxLen := len, rxHi := 2 }
      (captured a len i [] s) :=
    .of_receive he rfl fun _ _ => receive_header_announces rfl rfl hl rfl
  exact (readsTo_addressAndLength he hd a len).append hinstr

theorem readsTo_parameter {ps : List Byte} (b : Byte) (hl : len.toNat ≤ 7) (hps : ps.length < len.toNat - 3) :
    ReadsTo [b] (captured a len i ps s) (captured a len i (ps ++ [b]) s) := by
  have hd : (captured a len i ps s).dstate = .readParams := if_pos hps
  have hpi : (BitVec.ofNat 3 ps.length).toNat = ps.length := Nat.mod_eq_of_lt (by omega : ps.length < 2 ^ 3)
  have hnp : (BitVec.ofNat 3 (len.toNat - 3)).toNat = len.toNat - 3 :=
    Nat.mod_eq_of_lt (by omega : len.toNat - 3 < 2 ^ 3)
  have hlast : ps.length + 1 = len.toNat - 3 ↔ ¬(ps ++ [b]).length < len.toNat - 3 := by
    rw [List.length_append, List.length_singleton]
    omega
  refine .of_receive he (by rw [hd]; rfl) fun rest turns => ?_
  rw [receive_parameter (s := facing [] rest turns (captured a len i ps s)) hd hpi hnp (by omega)]
  simp only [hlast, ite_not]
  simp only [captured, facing, paramVector_snoc b (show ps.length < 4 by omega), List.length_append,
    List.length_singleton]

theorem readsTo_parameters {ps : List Byte} (qs : List Byte) (hl : len.toNat ≤ 7)
    (hps : (ps ++ qs).length ≤ len.toNat - 3) :
    ReadsTo qs (captured a len i ps s) (captured a len i (ps ++ qs) s) := by
  induction qs generalizing ps with
  | nil =>
    rw [List.append_nil]
    exact .nil _
  | cons b qs ih =>
    have hmore : ps.length < len.toNat - 3 := by
      simp only [List.length_append, List.length_cons] at hps
      omega
    rw [List.append_cons] at hps ⊢
    exact (readsTo_parameter a i he b hl hmore).append (ih hps)

end Captured

/-! ### The checksum byte (R72, R73) -/

/-- `s` once a DECODE has returned the frame `a`, `len`, `i`, `ps`. -/
def returned (a len i : Byte) (ps : List Byte) (s : State) : State :=
  { captured a len i ps s with
    res := Claims.frameReport .frame a len i ps (chk ([a, len, i] ++ ps)), resValid := true, eng := .idle
    dstate := .seekMarker1, sawTxDone := false }

theorem wellSized_iff {len : Byte} {ps : List Byte} :
    WellSized len ps ↔ len.toNat ≤ 7 ∧ ps.length = len.toNat - 3 := .rfl

section WellSized
variable {len : Byte} {ps : List Byte} (hw : WellSized len ps)
include hw

theorem WellSized.length_le : ps.length ≤ 4 := by
  obtain ⟨hl, hps⟩ := wellSized_iff.1 hw
  omega

variable (a i : Byte) (s : State)

theorem captured_rxNp : (captured a len i ps s).rxNp.toNat = ps.length := by
  obtain ⟨hl, hps⟩ := wellSized_iff.1 hw
  rw [hps]
  exact Nat.mod_eq_of_lt (by omega : len.toNat - 3 < 2 ^ 3)

theorem captured_rxNp_le : (captured a len i ps s).rxNp.toNat ≤ 4 := (captured_rxNp hw a i s).trans_le hw.length_le

theorem captured_dstate : (captured a len i ps s).dstate = .readChecksum := by
  obtain ⟨-, hps⟩ := wellSized_iff.1 hw
  exact if_neg hps.not_lt

theorem captured_rxP_take : (captured a len i ps s).rxP.toList.take (captured a len i ps s).rxNp.toNat = ps := by
  rw [captured_rxNp hw a i s]
  exact paramVector_take hw.length_le

theorem capturedBody_captured : capturedBody (captured a len i ps s) = [a, len, i] ++ ps :=
  congrArg ([a, len, i] ++ ·) (captured_rxP_take hw a i s)

theorem frameResult_captured (c : Byte) :
    frameResult c (captured a len i ps s) = Claims.frameReport .frame a len i ps c := by
  rw [frameResult_eq_frameReport c (captured_rxNp_le hw a i s), captured_rxP_take hw a i s]
  rfl

variable {s} (he : s.eng = .decode)
include he

theorem readsTo_checksum_right : ReadsTo [chk ([a, len, i] ++ ps)] (captured a len i ps s) (returned a len i ps s) := by
  refine .of_receive he (by rw [captured_dstate hw a i s]; rfl) fun rest turns => ?_
  rw [returned, ← frameResult_captured hw a i s]
  exact receive_checksum_right (captured_dstate hw a i s) (captured_rxNp_le hw a i s)
    (congrArg chk (capturedBody_captured hw a i s)).symm

theorem readsTo_checksum_wrong {c : Byte} (hc : c ≠ chk ([a, len, i] ++ ps)) :
    ReadsTo [c] (captured a len i ps s) { captured a len i ps s with dstate := .seekMarker1 } := by
  refine .of_receive he (by rw [captured_dstate hw a i s]; rfl) fun rest turns => ?_
  rw [← capturedBody_captured hw a i s] at hc
  exact receive_checksum_wrong (captured_dstate hw a i s) (captured_rxNp_le hw a i s) hc

/-! ### Whole frames (R43) -/

variable (hd : s.dstate = .seekMarker1)
include hd

theorem readsTo_body : ReadsTo ([0x55, 0x55, a, len, i] ++ ps) s (captured a len i ps s) := by
  obtain ⟨hl, hps⟩ := wellSized_iff.1 hw
  exact (readsTo_header a i he hd hl).append (readsTo_parameters a i he ps hl hps.le)

/-- A frame with the right checksum is returned. -/
theorem readsTo_wireFrame : ReadsTo (wireFrame a len i ps) s (returned a len i ps s) :=
  (readsTo_body hw a i he hd).append (readsTo_checksum_right hw a i he)

/-- A frame with a wrong checksum is dropped. -/
theorem readsTo_brokenFrame {c : Byte} (hc : c ≠ chk ([a, len, i] ++ ps)) :
    ReadsTo ([0x55, 0x55, a, len, i] ++ ps ++ [c]) s { captured a len i ps s with dstate := .seekMarker1 } :=
  (readsTo_body hw a i he hd).append (readsTo_checksum_wrong hw a i he hc)

end WellSized

@[simp] theorem wireFrame_length (a len i : Byte) (ps : List Byte) : (wireFrame a len i ps).length = ps.length + 6 := by
  simp [wireFrame]

theorem brokenFrame_length (a len i c : Byte) (ps : List Byte) :
    ([0x55, 0x55, a, len, i] ++ ps ++ [c]).length = ps.length + 6 := by
  simp

/-- The encoder's frame is the wire frame whose length byte counts its parameters (R56). -/
theorem frame_eq_wireFrame (a i : Byte) (ps : List Byte) :
    frame a i ps = wireFrame a (BitVec.ofNat 8 (3 + ps.length)) i ps := rfl

theorem wellSized_ofNat {ps : List Byte} (h : ps.length ≤ 4) : WellSized (BitVec.ofNat 8 (3 + ps.length)) ps := by
  have hlen : (BitVec.ofNat 8 (3 + ps.length)).toNat = 3 + ps.length :=
    Nat.mod_eq_of_lt (by omega : 3 + ps.length < 2 ^ 8)
  rw [wellSized_iff, hlen]
  omega

theorem xor_twoPow_ne {w k : Nat} (x : BitVec w) (h : k < w) : x ^^^ BitVec.twoPow w k ≠ x := by
  intro hx
  have hbit := congrArg (·.getLsbD k) hx
  simp [h] at hbit

end Sys2Proof.Machine

namespace Sys2Proof.Claims
open Sys2Proof.Machine

/-- Settles O42: the encoder's frame is a well-sized wire frame, which a DECODE that searches reads and returns
(`readsTo_wireFrame`). -/
theorem decodeReturnsAnEncodedFrame : Obligations.DecodeReturnsAnEncodedFrame := by
  intro s a i ps rest turns _ _ hps he hd hb hs
  rw [frame_eq_wireFrame] at hb
  have hreads := readsTo_wireFrame (wellSized_ofNat hps) a i he hd
  exact ⟨_, hreads.run_eq (wireFrame_length ..).symm hb hs, rfl, rfl, rfl, rfl, rfl, rfl, rfl⟩

/-- Settles O35: the two marker bytes are read before the frame's second one (`readsTo_addressAndLength`). -/
theorem loneMarkerStealsTheFrame : Obligations.LoneMarkerStealsTheFrame := by
  intro s a i ps rest turns he hd hb hs
  exact ⟨_, (readsTo_addressAndLength he hd 0x55 a).run_eq rfl hb hs, he, rfl, rfl, rfl, rfl, rfl, rfl⟩

/-- Settles O41: `readsTo_noise`. -/
theorem noiseKeepsTheDecodeAlive : Obligations.NoiseKeepsTheDecodeAlive :=
  fun _ _ _ _ hnoise he hd hb hs => (readsTo_noise he hd hnoise).run_eq rfl hb hs

/-- Settles O43: noise leaves the search as it is, so the frame behind it is read as if it came first; and only a marker byte
leads to SEEK_MARKER_2 (`eq_marker_of_receive_seekMarker2`). -/
theorem decodeResynchronizes : Obligations.DecodeResynchronizes := by
  refine ⟨fun s noise a len i ps rest turns hnoise hw he hd hb hs => ?frame,
    fun s t b rest he ht hb hne h hmarker => ?search⟩
  case frame =>
    have hreads := (readsTo_noise he hd hnoise).append (readsTo_wireFrame hw a i he hd)
    exact ⟨_, hreads.run_eq (by simp [Nat.add_assoc]) hb hs, rfl, rfl, rfl, rfl, rfl⟩
  case search =>
    obtain ⟨-, hlegal, -⟩ := step_next h
    rw [step_rx he hlegal ht hb] at h
    exact hmarker.resolve_right fun hsecond => hne (eq_marker_of_receive_seekMarker2 h hsecond)

/-- Settles O44: a flipped bit makes the checksum wrong (`xor_twoPow_ne`), so the first frame is dropped
(`readsTo_brokenFrame`) and the search that goes on finds the second one. -/
theorem flippedChecksumBitDropsTheFrame : Obligations.FlippedChecksumBitDropsTheFrame := by
  intro s k a len i a' len' i' ps ps' rest turns hk hw hw' he hd hb hs
  have hdrops := readsTo_brokenFrame hw a i he hd (xor_twoPow_ne _ hk)
  have hreturns := readsTo_wireFrame hw' a' i' (s := { captured a len i ps s with dstate := .seekMarker1 }) he rfl
  refine ⟨?dropped, ?found⟩
  case dropped =>
    have hs₁ : s.schedule = List.replicate (ps.length + 6) .rxDeliver ++
        (List.replicate (ps'.length + 6) .rxDeliver ++ turns) := by rw [hs, List.replicate_add, List.append_assoc]
    exact ⟨_, hdrops.run_eq (brokenFrame_length ..).symm (hb.trans (List.append_assoc ..)) hs₁, he, rfl, rfl, rfl⟩
  case found =>
    have hrun := (hdrops.append hreturns).run_eq
      (by rw [List.length_append, brokenFrame_length, wireFrame_length]) hb hs
    exact ⟨_, hrun, rfl, rfl, rfl, rfl⟩

end Sys2Proof.Claims
end

section
/-! PROOFS. The ENCODE rows by instruction byte (R82 to R110): the row that a word with this byte decodes to, and what an
accepting engine does with it. -/

namespace Sys2Proof.Machine

/-- A word with instruction byte `v` decodes to the row of `v`. -/
theorem decodeWord_of_instr {w : CmdWord} (hop : cmdOp w = 0) (v : Byte) (hv : cmdInstr w = v) :
    decodeWord w = encodeRow v (cmdOperands w) :=
  hv ▸ decodeWord_of_op_zero hop

/-- The row of a legal instruction byte is legal with every legal count and address. -/
theorem exec_encodeRow_legal {o : EncOperands} {s : State} (hs : Accepting s) (ho : LegalOperands o) (v : Byte)
    (hv : isValidOpcode v = true) : exec (encodeRow v o) s = .next (Claims.frameOnOffer v o s) :=
  (exec_encodeRow v o s).trans (encodeCommand_legal hs ho hv)

/-- An illegal instruction byte is among the reasons, whatever the operands are. -/
theorem encodeCheck_badInstr (a : Byte) {i : Byte} (np : BitVec 3) (hi : isValidOpcode i = false) :
    (encodeCheck a i np).getLsbD 1 = true := by
  obtain ⟨-, hinstr, -⟩ := encodeCheck_bits a i np
  exact hinstr.2 hi

theorem encodeCheck_ne_zero_of_illegal (a : Byte) {i : Byte} (np : BitVec 3) (hi : isValidOpcode i = false) :
    encodeCheck a i np ≠ 0 := by
  intro h
  have hbit := encodeCheck_badInstr a np hi
  simp [h] at hbit

end Sys2Proof.Machine

namespace Sys2Proof.Claims
open Sys2Proof.Machine

/-- Settles O45: each instruction is the row of its byte, which `decodeWord_of_instr` reads from the word and
`exec_encodeRow_legal` executes. -/
theorem moveAndIdCommands : Obligations.MoveAndIdCommands := by
  refine ⟨fun w hop => ?decoded, fun o s hs ho => ?executed⟩
  case decoded =>
    have row := decodeWord_of_instr hop
    exact ⟨row 1, row 2, row 7, row 8, row 11, row 12, row 13, row 14⟩
  case executed =>
    have row := exec_encodeRow_legal hs ho
    exact ⟨row 1 rfl, row 2 rfl, row 7 rfl, row 8 rfl, row 11 rfl, row 12 rfl, row 13 rfl, row 14 rfl⟩

/-- Settles O46: `decodeWord_of_instr` and `exec_encodeRow_legal` at the bytes 17 to 25. -/
theorem offsetAndLimitCommands : Obligations.OffsetAndLimitCommands := by
  refine ⟨fun w hop => ?decoded, fun o s hs ho => ?executed⟩
  case decoded =>
    have row := decodeWord_of_instr hop
    exact ⟨row 17, row 18, row 19, row 20, row 21, row 22, row 23, row 24, row 25⟩
  case executed =>
    have row := exec_encodeRow_legal hs ho
    exact ⟨row 17 rfl, row 18 rfl, row 19 rfl, row 20 rfl, row 21 rfl, row 22 rfl, row 23 rfl, row 24 rfl, row 25 rfl⟩

/-- Settles O47: `decodeWord_of_instr` and `exec_encodeRow_legal` at the bytes 26 to 36. -/
theorem readingModeLoadAndLedCommands : Obligations.ReadingModeLoadAndLedCommands := by
  refine ⟨fun w hop => ?decoded, fun o s hs ho => ?executed⟩
  case decoded =>
    have row := decodeWord_of_instr hop
    exact ⟨row 26, row 27, row 28, row 29, row 30, row 31, row 32, row 33, row 34, row 35, row 36⟩
  case executed =>
    have row := exec_encodeRow_legal hs ho
    exact ⟨row 26 rfl, row 27 rfl, row 28 rfl, row 29 rfl, row 30 rfl, row 31 rfl, row 32 rfl, row 33 rfl, row 34 rfl,
      row 35 rfl, row 36 rfl⟩

/-- Settles O48: an illegal byte selects the generic row (`encodeRow_of_illegal`), whose ENCODE reports it
(`encodeCommand_illegal`, `encodeCheck_badInstr`). -/
theorem otherInstructionBytesAreIllegal : Obligations.OtherInstructionBytesAreIllegal := by
  intro w s hop hv hs
  have hfails := encodeCheck_ne_zero_of_illegal (cmdAddr w) (cmdNParam w) hv
  refine ⟨(decodeWord_of_op_zero hop).trans (encodeRow_of_illegal _ hv), _,
    (exec_decodeWord_encode hop s).trans (encodeCommand_illegal hs hfails), hs.1, rfl, rfl, ?badInstr, rfl, rfl⟩
  case badInstr => exact encodeCheck_badInstr _ _ hv

end Sys2Proof.Claims
end

section
/-! PROOFS. No outcome is fatal (R116): a state that meets the invariant always has a next state, an error leaves an idle engine
that accepts the next command (R119), and a byte that leaves the DECODE in progress shows the host nothing (R114). -/

namespace Sys2Proof.Machine

/-! ### Each event goes on (R116) -/

theorem eng_of_enabledEvent_txAccept {x : Turn} {s : State} (h : enabledEvent x s = some .txAccept) : s.eng = .encode := by
  cases x <;> simp_all [enabledEvent]

theorem eng_of_enabledEvent_rxByte {x : Turn} {s : State} {b : Byte} (h : enabledEvent x s = some (.rxByte b)) :
    s.eng = .decode := by
  cases x <;> simp_all [enabledEvent]

/-- Every instruction has a next state where `ENG` and `DSTATE` are legal, at a busy engine too. -/
theorem exists_exec_next (i : Instr) {s : State} (he : s.eng ≠ .reserved) (hd : s.dstate.isReserved = false) :
    ∃ t, exec i s = .next t := by
  obtain ⟨start, hx⟩ := exists_exec_eq_accept i
  rw [hx, accept, guardLegal_of_legal he hd]
  split <;> exact ⟨_, rfl⟩

/-- While a whole frame is sent, `TX_N` and `TX_I` name a byte of it, so no TX_ACCEPT faults (R59; log entry 4). -/
theorem SendingFrame.exists_txAccept_next {s : State} (h : SendingFrame s) : ∃ t, txAccept s = .next t := by
  obtain ⟨hn6, hn10, hi⟩ := h.counters
  rw [txAccept, if_neg (by omega)]
  dsimp only
  split <;> exact ⟨_, rfl⟩

theorem exists_rxReadHeader_next (b : Byte) {s : State} (hhi : s.rxHi.toNat ≤ 2) : ∃ t, rxReadHeader b s = .next t := by
  have hcases : s.rxHi.toNat = 0 ∨ s.rxHi.toNat = 1 ∨ s.rxHi.toNat = 2 := by omega
  rcases hcases with hhi | hhi | hhi <;> simp [rxReadHeader, hhi]

theorem exists_rxReadParams_next (b : Byte) {s : State} (hpi : s.rxPi.toNat < 4) : ∃ t, rxReadParams b s = .next t := by
  rw [rxReadParams, if_neg (by omega)]
  dsimp only
  split <;> exact ⟨_, rfl⟩

theorem exists_rxReadChecksum_next (c : Byte) {s : State} (hnp : s.rxNp.toNat ≤ 4) :
    ∃ t, rxReadChecksum c s = .next t := by
  rw [rxReadChecksum, if_neg (by omega)]
  split <;> exact ⟨_, rfl⟩

/-- Legal capture counters name a byte in every state of the decoder, so no RX_BYTE faults (R65 to R72; log entry 4). -/
theorem CaptureLegal.exists_receive_next (b : Byte) {s : State} (h : CaptureLegal s) : ∃ t, receive b s = .next t := by
  obtain ⟨⟨hhi, hnp, -⟩, ha⟩ := h
  unfold receive
  split
  case h_1 => exact ⟨_, rfl⟩
  case h_2 => exact ⟨_, rfl⟩
  case h_3 => exact exists_rxReadHeader_next b hhi
  case h_4 hd =>
    obtain ⟨-, -, hlt⟩ := (captureAgrees_readParams_iff hd).1 ha
    exact exists_rxReadParams_next b (hlt.trans_le hnp)
  case h_5 => exact exists_rxReadChecksum_next b hnp
  case h_6 hd | h_7 hd | h_8 hd => simp [CaptureAgrees, hd] at ha

/-- Progress: whatever the next turn is, a state that meets the invariant has a next state. -/
theorem Inv.exists_step_next {s : State} (h : Inv s) : ∃ t, step s = .next t := by
  have hp : Inv (popTurn s) := h.after_popTurn
  rw [step, stepTurn, guardLegal_of_legal hp.engLegal hp.dstateLegal]
  split
  case h_1 => exact ⟨_, rfl⟩
  case h_2 => exact exists_exec_next _ hp.engLegal hp.dstateLegal
  case h_3 hx => exact (hp.sending (eng_of_enabledEvent_txAccept hx)).exists_txAccept_next
  case h_4 hx =>
    have hc := hp.after_consume
    have he := eng_of_enabledEvent_rxByte hx
    exact CaptureLegal.exists_receive_next _ ⟨hc.captureInRange, hc.reading he⟩
  case h_5 => exact ⟨_, rfl⟩
  case h_6 => exact ⟨_, rfl⟩

/-! ### After a result (R116) -/

/-- A valid result is one of an operation that has ended, so the engine can accept (R21). -/
theorem Inv.accepting_of_resValid {s : State} (h : Inv s) (hv : s.resValid = true) : Accepting s := by
  refine ⟨?_, h.dstateLegal⟩
  by_contra he
  simp [h.busyNoResult he] at hv

end Sys2Proof.Machine

namespace Sys2Proof.Claims
open Sys2Proof.Machine

/-- Settles O58, by induction on the number of steps: there is a next state (`Inv.exists_step_next`), and it meets the invariant
again (`stepKeepsTheInvariant`). -/
theorem noRunStops : Obligations.NoRunStops := by
  intro s h k
  induction k generalizing s with
  | zero => exact ⟨s, rfl⟩
  | succ k ih =>
    obtain ⟨t, ht⟩ := h.exists_step_next
    rw [run_succ ht]
    exact ih t (stepKeepsTheInvariant s t h ht)

/-- Settles O52: of the four cases of `step_result`, two accept a command and one ends the operation; what is left keeps `ENG`,
`RES_VALID` and `RES`, and the host reads nothing else. -/
theorem discardIsInvisible : Obligations.DiscardIsInvisible := by
  intro s t h ht hdec
  have hna := not_acceptsNow_of_turn (s := s) (by simp [ht])
  rcases step_result h (by simp [ht]) with ⟨ha, -⟩ | ⟨ha, -⟩ | ⟨-, he, hv, hres⟩ | ⟨-, hidle, -⟩
  · exact absurd ha hna
  · exact absurd ha hna
  · exact ⟨by simp [readRes, hres], by simp [status, ready, he, hv]⟩
  · simp [hdec] at hidle

/-- Settles O54: an error is a valid result, so the engine is idle (`Inv.accepting_of_resValid`); its host's turn is the
acceptance of the presented word (`step_host`), which has a next state and takes the word off the port. -/
theorem engineGoesOnAfterAnError : Obligations.EngineGoesOnAfterAnError := by
  intro s t h ht hv _
  have hinv : Inv t := stepKeepsTheInvariant s t h ht
  obtain ⟨hidle, hlegal⟩ := hinv.accepting_of_resValid hv
  refine ⟨hidle, fun w hturn hw => ?_⟩
  have hstep := step_host hidle hturn hw
  have hacc : Accepting (popTurn t) := ⟨by simpa using hidle, by simpa using hlegal⟩
  obtain ⟨u, hu⟩ := hinv.exists_step_next
  obtain ⟨hq, -⟩ := onlyAnIdleEngineAccepts.1 (decodeWord w) (popTurn t) u hacc (hstep.symm.trans hu)
  exact ⟨u, hu, hstep, hq.trans (hostRest_popTurn t)⟩

end Sys2Proof.Claims
end

section
/-! PROOFS. Reset (R127, R130), and the words on the command port: each stays until the step that accepts it, through reset too,
and leaves the port in that step (R132). -/

namespace Sys2Proof.Machine

/-! ### What the host presents, and items behind it (R53) -/

/-- An item lined up at the end changes neither the word that is offered nor what is skipped before it. -/
theorem hostOffer_append {note : Bool} {q rest : List HostItem} {w : CmdWord} (h : hostOffer note q = some (w, rest))
    (added : List HostItem) : hostOffer note (q ++ added) = some (w, rest ++ added) := by
  induction q with
  | nil => cases h
  | cons item q ih =>
    cases item with
    | word v =>
      cases h
      rfl
    | afterTxDone v =>
      cases note with
      | true =>
        cases h
        rfl
      | false => exact ih h

theorem presentedCmd_of_append {s t : State} {w : CmdWord} {added : List HostItem} (hw : presentedCmd s = some w)
    (hn : t.sawTxDone = s.sawTxDone) (hq : t.hostQueue = s.hostQueue ++ added) : presentedCmd t = some w := by
  obtain ⟨⟨v, rest⟩, hoffer, rfl⟩ := Option.map_eq_some_iff.1 hw
  rw [presentedCmd, hn, hq, hostOffer_append hoffer]
  rfl

/-- A plain word at the head is presented whatever the host has noted. -/
theorem presentedCmd_of_word {s : State} {w : CmdWord} {q : List HostItem} (hq : s.hostQueue = .word w :: q) :
    presentedCmd s = some w := by
  simp [presentedCmd, hq, hostOffer]

/-! ### What a step does to what the host will present (R45, R132) -/

/-- An accepting step leaves what stood behind the word on the port; any other step leaves everything, or lines up one item. -/
theorem step_hostQueue {s t : State} (h : step s = .next t) :
    (Claims.AcceptsNow s ∧ t.hostQueue = hostRest s) ∨
    (¬Claims.AcceptsNow s ∧
      (t.hostQueue = s.hostQueue ∨ ∃ i, nextTurn s = .present i ∧ t.hostQueue = s.hostQueue ++ [i])) := by
  obtain ⟨-, hd, h⟩ := step_next h
  rcases h with ⟨ht, rfl⟩ | ⟨ht, he, w, hw, hx⟩ | ⟨ht, -, hx⟩ | ⟨ht, -, b, rest, -, hx⟩ | ⟨ht, -, rfl⟩ | ⟨hn, -, rfl⟩
  · exact .inr ⟨not_acceptsNow_of_turn (by simp [ht]), .inl (by simp)⟩
  · have hacc : Accepting (popTurn s) := ⟨by simpa using he, by simpa using hd⟩
    obtain ⟨hq, -⟩ := Claims.onlyAnIdleEngineAccepts.1 _ _ _ hacc hx
    exact .inl ⟨⟨ht, he, by simp [hw]⟩, by simpa using hq⟩
  · obtain ⟨-, -, -, -, -, -, -, -, -, -, hq⟩ := txAccept_frame hx
    exact .inr ⟨not_acceptsNow_of_turn (by simp [ht]), .inl (by simpa using hq)⟩
  · obtain ⟨-, -, -, hq⟩ := receive_frame hx
    exact .inr ⟨not_acceptsNow_of_turn (by simp [ht]), .inl (by simpa using hq)⟩
  · exact .inr ⟨not_acceptsNow_of_turn (by simp [ht]), .inl (by simp)⟩
  · refine .inr ⟨not_acceptsNow_of_noEvent hn, ?_⟩
    obtain ⟨i, hi, hm⟩ | ⟨b, -, hm⟩ | ⟨-, -, hm⟩ := environmentMove_cases (nextTurn s) (popTurn s) <;> rw [hm]
    · exact .inr ⟨i, hi, by simp⟩
    · exact .inl (by simp)
    · exact .inl (by simp)

/-- A step that accepts nothing takes nothing off what the host will present. -/
theorem step_hostQueue_append {s t : State} (h : step s = .next t) (hna : ¬Claims.AcceptsNow s) :
    ∃ added, t.hostQueue = s.hostQueue ++ added := by
  rcases step_hostQueue h with ⟨ha, -⟩ | ⟨-, hq | ⟨i, -, hq⟩⟩
  · exact absurd ha hna
  · exact ⟨[], by simpa using hq⟩
  · exact ⟨[i], hq⟩

/-! ### Reset (R127) -/

theorem step_next_reset {s t : State} (h : step s = .next t) (ht : nextTurn s = .reset) : t = resetBlock (popTurn s) := by
  obtain ⟨he, hd, -⟩ := step_next h
  rw [step_reset he hd ht] at h
  cases h
  rfl

theorem sameBlock_reset_resetBlock (s : State) : Claims.SameBlock State.reset (resetBlock s) := rfl

/-- The host reads the same in two states with the same block (R22, R23). -/
theorem reads_of_sameBlock {s t : State} (h : Claims.SameBlock s t) : status t = status s ∧ readRes t = readRes s := by
  rw [h]
  exact ⟨rfl, rfl⟩

/-- An idle engine that accepts nothing stays idle, and the host's note stays as it is. -/
theorem idle_of_not_acceptsNow {s t : State} (h : step s = .next t) (hna : ¬Claims.AcceptsNow s) (he : s.eng = .idle) :
    t.eng = .idle ∧ t.sawTxDone = s.sawTxDone := by
  rcases step_sawTxDone h with ⟨ha, -⟩ | ⟨-, hbusy, -⟩ | ⟨-, hreset | heng, hn⟩
  · exact absurd ha hna
  · exact absurd he hbusy
  · exact ⟨by rw [step_next_reset h hreset]; rfl, hn⟩
  · exact ⟨heng.trans he, hn⟩

end Sys2Proof.Machine

namespace Sys2Proof.Claims
open Sys2Proof.Machine

/-- Settles O16: `step_hostQueue` says what a step leaves of what the host presents, and `hostOffer_split` where the accepted
word stood in it. -/
theorem eachWordIsAcceptedOnce : Obligations.EachWordIsAcceptedOnce := by
  intro s t h
  refine (step_hostQueue h).imp_left fun ⟨ha, hq⟩ => ⟨ha, hq, ?_⟩
  obtain ⟨-, -, hsome⟩ := ha
  obtain ⟨w, hw⟩ := Option.isSome_iff_exists.1 hsome
  obtain ⟨skipped, item, hsplit, hskipped, hitem⟩ := hostOffer_split _ _ _ hw
  exact ⟨skipped, item, by rwa [hq], hskipped, w, hw, hitem⟩

/-- Settles O17: a step that accepts nothing only adds at the end (`step_hostQueue_append`). At an idle engine the host's note
stays too (`idle_of_not_acceptsNow`), so the same word is offered; a plain word at the head does not depend on the note. -/
theorem presentedWordStaysUntilAccepted : Obligations.PresentedWordStaysUntilAccepted := by
  intro s t h hna
  obtain ⟨added, hq⟩ := step_hostQueue_append h hna
  refine ⟨fun w he hw => ?idle, fun w q hhead => ?head⟩
  case idle =>
    obtain ⟨hidle, hnote⟩ := idle_of_not_acceptsNow h hna he
    exact ⟨hidle, presentedCmd_of_append hw hnote hq⟩
  case head =>
    rw [hhead] at hq
    exact ⟨q ++ added, hq, presentedCmd_of_word hq⟩

/-- Settles O55: the step is the reset event (`step_reset`), after which the host reads what it reads at power-on, and the idle
engine runs the word on the port (`step_host`). -/
theorem resetEvent : Obligations.ResetEvent := by
  refine ⟨fun s he hd ht => ?_, rfl⟩
  have hblock := sameBlock_reset_resetBlock (popTurn s)
  obtain ⟨hstatus, hres⟩ := reads_of_sameBlock hblock
  obtain ⟨-, -, -, -, -, -, -, -, -, -, -, -, -, hres0, hstatus0⟩ := powerOnValues
  exact ⟨_, step_reset he hd ht, hblock, by simp, by simp, hstatus.trans hstatus0, hres.trans hres0,
    fun w hturn hw => step_host rfl hturn hw⟩

end Sys2Proof.Claims
end
